-- ==== Sys2Proof/Word.lean ====
section
/-! DEFINITION. The words of the Kidjaem module: bytes, 16-, 32- and 64-bit words, byte strings, and maps from an
index to what is held there (R9, R51: every field is little-endian bits). -/

namespace Sys2Proof

/-- A byte. -/
abbrev Byte := BitVec 8
/-- A U16. -/
abbrev Half := BitVec 16
/-- A U32, the width of g registers and vector lanes (R84). -/
abbrev Word := BitVec 32
/-- A U64. -/
abbrev Dword := BitVec 64
/-- A string of bytes, lowest address first. -/
abbrev Bytes := List Byte
/-- What is held at each index: rising keys, no entry equal to what an unlisted index holds. -/
abbrev Map (α : Type) := List (Nat × α)

end Sys2Proof
end

