-- ==== Sys2Proof/Syntax.lean ====
section
/-! DEFINITION. The commands of the module: one constructor of `Instr` for each row of spec/opcode_table.json, with
what the row's event carries in from outside as its operands. A row's event is one whole, indivisible step of the part
(spec/95_what_each_step_holds.md). -/

namespace Sys2Proof

/-- The operand fields of an instruction word (R106). The group and function come from the row. -/
structure Fields where
  pn  : Bool
  pr  : BitVec 3
  d   : BitVec 5
  a   : BitVec 5
  b   : BitVec 5
  m   : BitVec 5
  imm : Word
  deriving DecidableEq, Repr

/-- A packet's header flit (R265). `reserved` is every reserved byte and bit of the flit, read as one number. -/
structure Header where
  kind     : Byte
  vc       : Byte
  flits    : Byte
  dstRack  : Byte
  dstMod   : Byte
  srcRack  : Byte
  srcMod   : Byte
  hop      : Byte
  job      : Half
  epoch    : BitVec 12
  gen      : BitVec 12
  stamp    : Word
  tag      : Word
  addr     : Dword
  len      : Word
  status   : Byte
  group    : Byte
  member   : Byte
  seq      : Half
  chunk    : Word
  offset   : Word
  reserved : Nat
  deriving DecidableEq, Repr

/-- The content of an IDENT control flit (R286): `num` is the link number or the plane, `place` the coordinate source
or the switch tray, `index` the module index or the port number. -/
structure Ident where
  role     : Byte
  rates    : Byte
  rack     : Byte
  num      : Byte
  place    : Byte
  index    : Half
  serial   : Dword
  bufs     : List Half
  reserved : Nat
  deriving DecidableEq, Repr

/-- The far end of a network message (R330, R345, R384): which port of the module it reached, where it came from and
what the module's checks of a datagram look at. -/
structure Origin where
  service  : Bool
  addr     : BitVec 128
  port     : Half
  dstAddr  : BitVec 128
  dstPort  : Half
  fragment : Bool
  sumOk    : Bool
  deriving DecidableEq, Repr

/-- A Phophor message (R331, R332). A version 1 message uses version, op, transaction, index, sub, flags (its reserved
byte) and data. `short` says that its length does not hold a whole header, `noFlash` that module flash, as the module finds it, does not take
the value that the message would store (R336). -/
structure Msg where
  version     : Byte
  op          : Byte
  transaction : Half
  index       : Half
  sub         : Byte
  flags       : Byte
  session     : Word
  sequence    : Word
  offset      : Word
  total       : Word
  data        : Bytes
  short       : Bool
  noFlash     : Bool
  deriving DecidableEq, Repr

/-- An update datagram (R384). `noFlash` says that module flash cannot be written (R386). -/
structure UpdMsg where
  op          : Byte
  flags       : Byte
  transaction : Half
  offset      : Word
  total       : Word
  status      : Word
  data        : Bytes
  noFlash     : Bool
  deriving DecidableEq, Repr

/-- What the error code of a read found (R173, R174). -/
inductive Ecc where
  | clean
  | corrected
  | uncorrectable
  deriving DecidableEq, Repr

/-- A burst request at a memory controller (R185): an absolute address, the bytes of a write or the length of a read, and
the reader kind of R200 that issued it, with the partition and the context it acts for. -/
structure MemReq where
  addr   : Nat
  write  : Option Bytes
  len    : Nat
  reader : Byte
  part   : Option (Fin 8)
  ctx    : Option (Fin 4096)
  deriving DecidableEq, Repr

/-- What ended: the raising step that runs, the retrain that RS_CMD began, or a link's own retrain (R351, R367). -/
inductive Ended where
  | step
  | retrain
  | link (l : Fin 6)
  deriving DecidableEq, Repr

/-- What the hardware found when a raising step or a retrain ended (R352, R356, R360, R366). -/
structure Report where
  what        : Ended
  ok          : Bool
  reason      : Byte
  item        : Half
  channels    : List (Fin 192)
  failedBays  : List (Fin 64)
  soft        : List (Byte × Half × Word)
  retired     : List (Nat × Nat)
  hottest     : Int
  deriving DecidableEq, Repr

/-- What each sensor target answered to its private read (R488), or nothing, and the counts that the readers of R478 find overrun since the
reading before: bits 0 to 3 the receiver error counts of the PCIE ports, bit 4 SENSE. -/
structure Sensors where
  inlet    : Option (BitVec 16)
  outlet   : Option (BitVec 16)
  flow     : Option (BitVec 16)
  overruns : BitVec 5 := 0
  deriving DecidableEq, Repr

/-- A codeword's arrival at a link (R262, R263): the wrong symbols and the wrong bits in it, whether FEC corrected it, and the 5,140 bits of its data
symbols, as FEC leaves them. -/
structure Codeword where
  symbols   : Nat
  errors    : Nat
  corrected : Bool
  bits      : BitVec 5140
  deriving DecidableEq, Repr

/-- What the error codes of a core's memories find (R91, R108, R109): the words that they cannot correct, as 16-byte words of the
scratchpad, slot and 16-byte word, instructions by index, and 16-byte entries of the tables; and each error that they corrected, as the
hardware's number of the array and its row, and each that was corrected in the buffer of the core's bay since, by bank and row (R465; log 13). -/
structure Sram where
  scratch   : List Nat := []
  slots     : List (Nat × Nat) := []
  imem      : List Nat := []
  tables    : List Nat := []
  corrected : List (Nat × Nat) := []
  buffer    : List (Nat × Nat) := []
  deriving DecidableEq, Repr

/-- A core at a command, and what the error codes of its memories find then. -/
structure AtCore where
  core  : Fin 8192
  found : Sram := {}
  deriving DecidableEq, Repr

/-- A bay at a command, and what the error codes of its cores' memories find then, by core of the bay. -/
structure AtBay where
  bay   : Fin 64
  found : List (Fin 128 × Sram) := []
  deriving DecidableEq, Repr

/-- What a start needs beside the straps (R12, R486): PRSNT_N mated, RESET_N deasserted, and the input, the coolant flow and the 100 MHz
reference present; for how many ms WAKE_N has been deasserted, 0 while it is asserted; and whether LATCH_N is asserted (R485). -/
structure Services where
  mated     : Bool := true
  released  : Bool := true
  input     : Bool := true
  coolant   : Bool := true
  reference : Bool := true
  wakeOff   : Nat := 0
  latch     : Bool := true
  deriving DecidableEq, Repr

/-- The width and the rate in GT/s at which a host port's link has trained (R296). -/
structure PcieLink where
  lanes : Nat := 8
  rate  : Nat := 128
  deriving DecidableEq, Repr

/-- The straps as sampled (R484). -/
structure Straps where
  coord : BitVec 6
  node  : BitVec 3
  bifurcation : BitVec 2
  deriving DecidableEq, Repr

/-- A start: the straps that it samples, and what else it needs (R12, R484). -/
structure Start where
  straps   : Straps
  services : Services := {}
  deriving DecidableEq, Repr

/-- What a host has set through PCIe since it attached last (R296, R298): the size of BAR4, where it has chosen one, whether it has unmasked every
vector, and the writes that it has then made of the MSI-X table, each with its offset in the table. -/
structure PcieSetup where
  bar4 : Option Nat := none
  unmask : Bool := true
  msix : List (Nat × Bytes) := []
  deriving DecidableEq, Repr

/-- A host port as its host attaches, how its link has trained, and what the host has set (R296, R298). -/
structure AtPort where
  port  : Fin 4
  link  : PcieLink := {}
  setup : PcieSetup := {}
  deriving DecidableEq, Repr

/-- An input above a limit of R444: whether it is the higher one, and the measured voltage (R435). -/
structure Overvoltage where
  stage6     : Bool
  millivolts : Nat
  deriving DecidableEq, Repr

/-- The input power and the input voltage as measured (R435). -/
structure InputPower where
  milliwatts : Nat
  millivolts : Nat
  deriving DecidableEq, Repr

/-- The commands. -/
inductive Instr where
  -- scalar arithmetic and logic (R125)
  | add (c : AtCore) (f : Fields)
  | sub (c : AtCore) (f : Fields)
  | and (c : AtCore) (f : Fields)
  | or (c : AtCore) (f : Fields)
  | xor (c : AtCore) (f : Fields)
  | shl (c : AtCore) (f : Fields)
  | shr (c : AtCore) (f : Fields)
  | sar (c : AtCore) (f : Fields)
  | mul (c : AtCore) (f : Fields)
  | mulh (c : AtCore) (f : Fields)
  | setp (c : AtCore) (f : Fields)
  | plog (c : AtCore) (f : Fields)
  | li (c : AtCore) (f : Fields)
  | sel (c : AtCore) (f : Fields)
  | min (c : AtCore) (f : Fields)
  | max (c : AtCore) (f : Fields)
  -- scalar load and store (R126)
  | ldw (c : AtCore) (f : Fields)
  | ldh (c : AtCore) (f : Fields)
  | ldb (c : AtCore) (f : Fields)
  | stw (c : AtCore) (f : Fields)
  | sth (c : AtCore) (f : Fields)
  | stb (c : AtCore) (f : Fields)
  -- branch and loop (R127)
  | br (c : AtCore) (f : Fields)
  | bri (c : AtCore) (f : Fields)
  | loop (c : AtCore) (f : Fields)
  | brk (c : AtCore) (f : Fields)
  -- vector arithmetic (R128 to R130)
  | vadd (c : AtCore) (f : Fields)
  | vsub (c : AtCore) (f : Fields)
  | vmul (c : AtCore) (f : Fields)
  | vfma (c : AtCore) (f : Fields)
  | vmin (c : AtCore) (f : Fields)
  | vmax (c : AtCore) (f : Fields)
  | vand (c : AtCore) (f : Fields)
  | vor (c : AtCore) (f : Fields)
  | vxor (c : AtCore) (f : Fields)
  | vshl (c : AtCore) (f : Fields)
  | vshr (c : AtCore) (f : Fields)
  | vcmp (c : AtCore) (f : Fields)
  | vsel (c : AtCore) (f : Fields)
  | vcvt (c : AtCore) (f : Fields)
  | vred (c : AtCore) (f : Fields)
  | vperm (c : AtCore) (f : Fields)
  -- vector load, store and lane moves (R131)
  | vld (c : AtCore) (f : Fields)
  | vst (c : AtCore) (f : Fields)
  | vldx (c : AtCore) (f : Fields)
  | vstx (c : AtCore) (f : Fields)
  | vins (c : AtCore) (f : Fields)
  | vext (c : AtCore) (f : Fields)
  | vbcst (c : AtCore) (f : Fields)
  -- nonlinear tables and range reduction (R132)
  | vnl (c : AtCore) (f : Fields)
  | vflr (c : AtCore) (f : Fields)
  | vfrac (c : AtCore) (f : Fields)
  | vldexp (c : AtCore) (f : Fields)
  -- tensor, drain and export (R133, R134), and the tensor queue's head (R88)
  | tmma (c : AtCore) (f : Fields)
  | tmmac (c : AtCore) (f : Fields)
  | tclr (c : AtCore) (f : Fields)
  | tjoin (c : AtCore) (f : Fields)
  | drain (c : AtCore) (f : Fields)
  | exportTile (c : AtCore) (f : Fields)
  | tensorQueueEntry (c : AtCore)
  -- stream (R138)
  | swait (c : AtCore) (f : Fields)
  | srel (c : AtCore) (f : Fields)
  -- mover, synchronisation, Truss and sampler hooks, system (R139 to R144)
  | movd (c : AtCore) (f : Fields)
  | barb (c : AtCore) (f : Fields)
  | bard (c : AtCore) (f : Fields)
  | waitf (c : AtCore) (f : Fields)
  | tsync (c : AtCore) (f : Fields)
  | mwait (c : AtCore) (f : Fields)
  | tcoll (c : AtCore) (f : Fields)
  | lsend (c : AtCore) (f : Fields)
  | nop (c : AtCore) (f : Fields)
  | mfs (c : AtCore) (f : Fields)
  | halt (c : AtCore) (f : Fields)
  | trap (c : AtCore) (f : Fields)
  -- sequencers, barriers and steps
  | dieBarrierToken (b : Fin 64)
  | dieBarrierRelease (b : Fin 64)
  | transferStart (c : Fin 8192) (id : Nat)
  | transferComplete (c : AtCore) (id : Nat)
  | faultReport (b : Fin 64)
  | stopConfirmationTimeout (p : Fin 8)
  | stepLoad (b : AtBay)
  | startToken (p : Fin 8)
  | stepComplete (p : Fin 8)
  -- streams (R145 to R168)
  | streamRead (n : Fin 24) (i : Fin 16)
  | streamFlit (b : Fin 64)
  | fillWrite (b : Fin 64) (r : Fin 8)
  | stageCreditReturn (b : Fin 64) (stream : Nat)
  | descriptorFetch (b : Fin 64) (r : Fin 8)
  -- memory (R169 to R204)
  | controllerRequest (n : Fin 24) (q : MemReq) (e : Ecc)
  | patrol (n : Fin 24) (addr : Nat) (e : Ecc)
  | allocationRequest (p : Fin 8) (x : Fin 4096) (page : Nat)
  | refill (b : Fin 64) (p : Fin 8) (page : Nat) (first second : Ecc)
  | scrubDone (n : Fin 24)
  -- sampler units (R205 to R230)
  | sliceDescriptor (u : Fin 8)
  | engineLoaded (u : Fin 8) (x : Fin 4096) (record grammar : Ecc)
  | rowComplete (u : Fin 8) (x : Fin 4096)
  -- the Truss engine (R231 to R259)
  | admission (p : Fin 8)
  | creditRegrant (i : Fin 32) (peer : Nat)
  | chunkSend (i : Fin 32) (dest : Nat)
  | fold (i : Fin 32)
  | chunkTimeout (i : Fin 32) (dest chunk : Nat)
  | receiveTimeout (i : Fin 32) (peer : Nat)
  -- links and packets (R260 to R295)
  | laneLockTimeout (l : Fin 6)
  | codeword (l : Fin 6) (w : Codeword)
  | read (l : Fin 6) (h : Header)
  | write (l : Fin 6) (h : Header) (data : Bytes)
  | readReply (l : Fin 6) (h : Header) (data : Bytes)
  | writeReply (l : Fin 6) (h : Header)
  | chunk (l : Fin 6) (h : Header) (data : Bytes)
  | chunkAck (l : Fin 6) (h : Header)
  | chunkCredit (l : Fin 6) (h : Header)
  | chunkCount (l : Fin 6) (h : Header)
  | idle (l : Fin 6)
  | ident (l : Fin 6) (i : Ident)
  | credit (l : Fin 6) (freed : List Half)
  | audit (l : Fin 6) (sent : List Half)
  | depart (l : Fin 6) (serial : Dword)
  | creditSend (l : Fin 6)
  | auditSend (l : Fin 6)
  | identSend (l : Fin 6)
  | linkTransmit (l : Fin 6) (vc : Fin 6)
  | remoteRequest (forCopy : Bool) (unit : Fin 8192) (id : Nat)
  | replySend (i : Nat)
  | requestTimeout (tag : Word)
  | tagQuarantineEnd (tag : Word)
  | laneLockLost (l : Fin 6)
  | berWindow (l : Fin 6) (errors bits : Nat) (overrun : Bool)
  | linkSilence (l : Fin 6)
  | linkRetrainAttempt (l : Fin 6)
  -- host ports (R296 to R308, R316, R319, R320)
  | functionLevelReset (n : Fin 4)
  | hotReset (n : Fin 4)
  | pcieLinkDown (n : Fin 4)
  | busMasterEnableClear (n : Fin 4)
  | perst (n : Fin 4)
  | bar4Read (n : Fin 4) (offset len : Nat)
  | bar4Write (n : Fin 4) (offset : Nat) (data : Bytes)
  | emuLate (n : Fin 4) (stuck : Bool)
  | registerWrite (n : Fin 4) (offset : Nat) (value : Dword)
  | hpTimeLo (n : Fin 4)
  | hpHeartbeat (n : Fin 4) (value : Word)
  | attach (n : AtPort)
  | detach (n : Fin 4)
  | heartbeatTimeout (n : Fin 4)
  | holdExpire (n : Fin 4)
  | raise (n : Fin 4)
  | formation (p : Fin 8)
  | reset (n : Fin 4)
  | resetDone (p : Fin 8)
  | shore (n : Fin 4)
  | unshore (n : Fin 4)
  | remove (n : Fin 4)
  | create (n : Fin 4)
  | delete (n : Fin 4)
  | query (n : Fin 4)
  | dbSqTail (n : Fin 4) (q : Fin 4096) (value : Word) (entries : List Bytes)
  | dbCqHead (n : Fin 4) (q : Fin 4096) (value : Word)
  -- queue commands (R309 to R318, R496, R497); each dispatches the first unstarted command of queue q
  | step (q : Fin 4096)
  | openCtx (q : Fin 4096)
  | bind (q : Fin 4096)
  | resume (q : Fin 4096)
  | park (q : Fin 4096)
  | close (q : Fin 4096)
  | setParams (q : Fin 4096)
  | copy (q : Fin 4096) (hostData : Bytes)
  | grammarLoad (q : Fin 4096)
  | grammarEmpty (q : Fin 4096)
  | fenceQueue (q : Fin 4096)
  | fencePartition (q : Fin 4096)
  | delay (q : Fin 4096)
  | deadline (q : Fin 4096)
  | timerExpiry (q : Fin 4096) (seq : Nat)
  | commandCompletion (q : Fin 4096) (seq : Nat)
  | commandTimeout (q : Fin 4096) (seq : Nat)
  -- the dictionary (R321 to R346) and the objects with a behaviour of their own
  | objectRead (o : Origin) (m : Msg)
  | objectWrite (o : Origin) (m : Msg)
  | nextObject (o : Origin) (m : Msg)
  | sessionOpen (o : Origin) (m : Msg)
  | sessionProve (o : Origin) (m : Msg)
  | sessionClose (o : Origin) (m : Msg)
  | sessionIdleExpiry (i : Fin 8)
  | validityEnd (i : Fin 8)
  | lockoutEnd
  | partialWriteExpiry (i : Nat)
  | snapshotExpiry (i : Nat)
  | mbCtrlSend (n : Fin 4) (value : Word) (noFlash : Bool)
  | neighborDiscovery (o : Origin) (target : BitVec 128) (duplicate : Bool)
  | echo (o : Origin) (payload : Bytes)
  | comUdpPort (o : Origin) (m : Msg)
  | jobEpoch (o : Origin) (m : Msg)
  | jobId (o : Origin) (m : Msg)
  | jobMap (o : Origin) (m : Msg)
  | routePlan (o : Origin) (m : Msg)
  | memGradeSet (o : Origin) (m : Msg)
  | pwrCap (o : Origin) (m : Msg)
  | clkTimeSet (o : Origin) (m : Msg)
  | clkOverrun (o : Origin) (m : Msg)
  | secQuoteReq (o : Origin) (m : Msg)
  | quoteSigned
  | secSessRoot (o : Origin) (m : Msg)
  | secImgRevoked (o : Origin) (m : Msg)
  | secMoved (o : Origin) (m : Msg)
  | scrClear (o : Origin) (m : Msg)
  | confirm (o : Origin) (m : Msg)
  | reject (o : Origin) (m : Msg)
  | fwRestart (o : Origin) (m : Msg)
  | fwWarm (o : Origin) (m : Msg)
  | fwUpdArm (o : Origin) (m : Msg)
  | fwRecover (o : Origin) (m : Msg)
  -- boot image updates (R383 to R391)
  | updBegin (o : Origin) (m : UpdMsg)
  | updData (o : Origin) (m : UpdMsg)
  | updEnd (o : Origin) (m : UpdMsg)
  | updStatus (o : Origin) (m : UpdMsg)
  | applyDone
  | updateSilence
  -- raising (R347 to R369); each is a write of its code to RS_CMD by port n
  | loadFw (n : Fin 4) (image : Bytes)
  | fuseLoad (n : Fin 4)
  | clocks (n : Fin 4)
  | memTrainA (n : Fin 4)
  | coreTest (n : Fin 4)
  | reduced (n : Fin 4)
  | memTrainB (n : Fin 4)
  | linkTrain (n : Fin 4)
  | linkSoak (n : Fin 4)
  | plumb (n : Fin 4)
  | ready (n : Fin 4)
  | retrainChannel (n : Fin 4)
  | retrainLink (n : Fin 4)
  | raisingStepComplete (r : Report)
  -- log rings and the management core (R374 to R382, R389, R412)
  | lgCtrlStart (n : Fin 4)
  | lgCtrlStop (n : Fin 4)
  | watchdogExpire
  | mgmtMemoryError
  | fwBusyClear (heldOk : Bool) (duration : Word)
  | romStart (candidateServes confirmedServes : Bool)
  | bootWatchdog
  | fabricProgress (station : Fin 36)
  -- pins (R428, R485, R486, R494)
  | latchOpen
  | wake
  | leaveReset (w : Start)
  | resetN
  | prsntNBreak
  -- power, cooling, temperature (R434 to R458)
  | stageTaken (n : Fin 7) (millivolts : Nat)
  | stageLeft (n : Fin 7) (millivolts : Nat)
  | overvoltage (v : Overvoltage)
  | inputLost
  | powerControl (v : InputPower)
  | braceAssert
  | braceRelease
  | overcurrent
  | overcurrentRelease (milliwatts : Nat)
  | sensorRead (r : Sensors) (meanFlow : Nat)
  | sensorSilent (which : Fin 3)
  | flowForecast (milliwatts : Nat)
  | flowLow (derate : Bool)
  | inletHigh (shoreAll : Bool)
  | inletClear
  | coolantStop (outletRise : Bool)
  | coolantRecover
  | thermalSample (diodes : List (Nat × Int)) (packages : List Int)
  | sensorDisagree (spot : Fin 88) (first second : Nat) (millikelvin : Nat)
  | trip (spot : Fin 88) (diode : Fin 4)
  -- the Scribe (R459 to R468)
  | tokenRefill (code : Half)
  | stampMark
  | scribeFlush
  -- clocks (R469 to R480)
  | referenceLoss
  | referenceReturn
  | secondMark
  | markMissing
  | crossingTimeout (firmware : Bool)
  | lanesLocked (l : Fin 6) (t2 : Bool)
  | consistencyCheckFail
  | overvoltageClear
  | braceMinimumHoldEnd
  | bottomTreeBuilt
  deriving DecidableEq, Repr

end Sys2Proof
end

