-- ==== Sys2Proof/Config.lean ====
section
/-! DEFINITION. What the spec leaves open: free values, and functions that the spec names but does not state. None has a
body, so no proof can lean on a value of it. -/

namespace Sys2Proof.Config

/-- A free value: draw `n` of the run. Used where the spec leaves a value undefined or lets either of two stand (R109,
R141, R312, R315, R338); log 2. -/
opaque freeValue : Nat → Nat

/-- The ARITH cycles, beyond its issue cycles, that an instruction waits before it issues (R87, R88, R92, R93): draw `n`;
log 5. -/
opaque stallCycles : Nat → Dword

/-- The fixed polynomial of R214 for 2^f, of a fraction f in units of 2^−149: its value in units of 2^−23; log 20. -/
opaque exp2 : (fraction : Nat) → Nat

/-- The fixed function of R214 that reports ln(w / S); log 20. -/
opaque logProb : Word → Word → Word

/-- Whether a 2,820-byte XMSS-SHAKE256_20_256 signature of a message verifies under a 68-byte public key (R338, R339,
R372, R394); the standard is outside the spec; log 21. -/
opaque xmssVerify : (key msg sig : Bytes) → Bool

/-- The identity key's 9,893-byte signature of a message with a leaf index (R393, R401); log 21. -/
opaque identitySign : (index : Nat) → (msg : Bytes) → Bytes

/-- SHAKE256 with 256-bit output (R371, R385, R402); the standard is outside the spec; log 21. -/
opaque shake256 : Bytes → Bytes

/-- The vendor image roots in the die's ROM, by slot (R398); log 21. -/
opaque imageRoot : Nat → Bytes

/-- The identity public key that the part carries (R393, R394); log 21. -/
opaque identityKey : Bytes
/-- The vendor image root slot under which the identity certificate was signed (R394); log 21. -/
opaque certSlot : Nat
/-- The signature of the identity certificate in module flash (R394); log 21. -/
opaque certSignature : Bytes

/-- The Scribe code of an event kind that the table of R465 does not list (R465: every kind has its own code); log 22. -/
opaque scribeCode : Nat → Half

/-- The arguments of an event of an unlisted kind, from the details of the happening, after those that the spec states; log 22. -/
opaque scribeArgs : Nat → List Nat → List Nat

/-- Whether an event that is to take the sequence `next` joins the CTRL cycle of the entry recorded before it, where no TICK lies between the two: a
CTRL cycle is shorter than a TICK (R460); log 8. -/
opaque sameCycle : (up : Dword) → (next : Nat) → Bool

/-- The argument of SENSOR_DISAGREE that names a pair of diodes (R455, R465); log 22. -/
opaque diodePair : Nat → Nat → Nat

/-- The trainer microcode version that a runtime image carries (R373, R392); the layout of its body belongs to Celoon; log 22. -/
opaque ucodeVersion : (runtime : Bytes) → Nat

/-- The code that LINK_RETRAIN's argument gives a retrain's result (R367, R465), which the spec does not state; log 22. -/
opaque retrainResult : (returned : Bool) → Nat

/-- The number that LAYOUT_FAIL's argument gives a failed check, from its place in the order of R184 and R259 (R304, R465), which the
spec does not state; log 22. -/
opaque layoutCheck : (place : Nat) → Nat

/-- The name and the argument count of an event kind that the table of R465 does not list, as SCR_CODES gives them; log 22. -/
opaque eventName : Nat → Bytes
opaque eventArgs : Nat → Nat

/-- The entries of FW_TRACE_DICT that a runtime image carries (R382), from the image: class, argument count, code and name; log 22. -/
opaque traceCodes : (runtime : Bytes) → List (Byte × Byte × Half × Bytes)

/-- The reason that IMAGE_FALLBACK gives (R389, R465), which the spec does not number: 0 a restart storm, 1 three trials, 2 a check that
failed, 3 an image that did not serve; log 22. -/
opaque fallbackReason : Nat → Nat

/-- A header field of a version 2 response whose value the spec does not state: 0 the sequence, 1 the offset, 2 the total, for the
request's own value of that field (R332, R333); log 63. -/
opaque replyField : (which request : Nat) → Nat

/-- The per mille of the raising step `code` that is done, some nanoseconds after it began (R350, R352; free value, log 96). -/
opaque stepProgress : (code elapsed : Nat) → Nat

end Sys2Proof.Config
end

