-- ==== Sys2Proof/Machine/Bits.lean ====
section
/-! DEFINITION. Byte order (R9), bit fields, CRC-32C (R111, R222, R288, R385) and Philox4x32-10 (R76, R215). -/

namespace Sys2Proof.Machine

/-- The number that little-endian bytes spell (R9). -/
def leNat : Bytes → Nat
  | [] => 0
  | b :: bs => b.toNat + 256 * leNat bs

/-- `k` little-endian bytes of a number (R9). -/
def leBytes : Nat → Nat → Bytes
  | 0, _ => []
  | k + 1, n => BitVec.ofNat 8 n :: leBytes k (n / 256)

/-- Bytes `off` to `off + k − 1` of a structure, read as a number; bytes past its end read 0. -/
def field (bs : Bytes) (off k : Nat) : Nat := leNat ((bs.drop off).take k)

/-- Bytes `off` to `off + k − 1` of a string. -/
def sub (bs : Bytes) (off k : Nat) : Bytes := (bs.drop off).take k

/-- Whether bytes `off` to `off + k − 1` are all zero (reserved fields, R10). -/
def zeros (bs : Bytes) (off k : Nat) : Bool := (sub bs off k).all (· == 0)

/-- Bits `lo` to `lo + k − 1` of a number. -/
def bits (n lo k : Nat) : Nat := (n >>> lo) % 2 ^ k

/-- Bit `i` of a number. -/
def bit (n i : Nat) : Bool := n.testBit i

/-- A number with bit `i` set to `v`. -/
def setBit (n i : Nat) (v : Bool) : Nat :=
  if n.testBit i == v then n else n ^^^ 2 ^ i

/-- `n` rounded up to a multiple of `k`. -/
def roundUp (n k : Nat) : Nat := (n + k - 1) / k * k

/-- A signed number kept to the width of an Int32, two's complement. -/
def word (i : Int) : Word := BitVec.ofInt 32 i

/-- `k` zero bytes. -/
def zeroBytes (k : Nat) : Bytes := List.replicate k 0

/-- Bytes cut or padded with zeros to length `k`. -/
def padTo (k : Nat) (bs : Bytes) : Bytes := (bs ++ zeroBytes k).take k

/-- Overwrite bytes of a string from offset `off`. -/
def patch (bs : Bytes) (off : Nat) (new : Bytes) : Bytes :=
  bs.take off ++ new ++ bs.drop (off + new.length)

/-- A string cut into pieces of `k` bytes; `n` bounds the count. -/
def pieces (k : Nat) : Nat → Bytes → List Bytes
  | 0, _ => []
  | n + 1, bs => if bs.isEmpty then [] else bs.take k :: pieces k n (bs.drop k)

/-! ## CRC-32C (Castagnoli): reflected polynomial 0x82F63B78, initial and final value all ones (log 24). -/

/-- One bit of the reflected CRC. -/
def crcBit (c : Nat) : Nat := if c % 2 = 1 then (c / 2) ^^^ 0x82F63B78 else c / 2

/-- One byte of the CRC. -/
def crcByte (c : Nat) (b : Byte) : Nat :=
  let c := c ^^^ b.toNat
  crcBit (crcBit (crcBit (crcBit (crcBit (crcBit (crcBit (crcBit c)))))))

/-- CRC-32C of a byte string. -/
def crc32c (bs : Bytes) : Word := BitVec.ofNat 32 ((bs.foldl crcByte 0xFFFFFFFF) ^^^ 0xFFFFFFFF)

/-- CRC-32C of a string whose four bytes at `off` are taken as zero (R111, R222, R288, R385). -/
def crcAt (bs : Bytes) (off : Nat) : Word := crc32c (patch bs off (zeroBytes 4))

/-! ## Philox4x32-10 (R76, R215); its multipliers and key increments are the published ones (log 24). -/

/-- One round on counter and key words below 2^32. -/
def philoxRound (c0 c1 c2 c3 k0 k1 : Nat) : Nat × Nat × Nat × Nat :=
  let p0 := 0xD2511F53 * c0
  let p1 := 0xCD9E8D57 * c2
  (((p1 / 2 ^ 32) ^^^ c1) ^^^ k0, p1 % 2 ^ 32, ((p0 / 2 ^ 32) ^^^ c3) ^^^ k1, p0 % 2 ^ 32)

/-- `n` rounds, the key advancing after each. -/
def philoxRounds : Nat → Nat → Nat → Nat → Nat → Nat → Nat → List Nat
  | 0, c0, c1, c2, c3, _, _ => [c0, c1, c2, c3]
  | n + 1, c0, c1, c2, c3, k0, k1 =>
    let (a, b, c, d) := philoxRound c0 c1 c2 c3 k0 k1
    philoxRounds n a b c d ((k0 + 0x9E3779B9) % 2 ^ 32) ((k1 + 0xBB67AE85) % 2 ^ 32)

/-- Output word `i` of Philox4x32-10 for a counter and a key. -/
def philox (c0 c1 c2 c3 k0 k1 : Word) (i : Nat) : Word :=
  BitVec.ofNat 32 ((philoxRounds 10 c0.toNat c1.toNat c2.toNat c3.toNat k0.toNat k1.toNat).getD i 0)

/-- The 24-bit random number of an SR drain or conversion for element index `n` (R76, R137). -/
def srRandom (k0 k1 c0 site n : Word) : Nat :=
  (philox c0 (BitVec.ofNat 32 (n.toNat / 4)) site 0x5352_4E44 k0 k1 (n.toNat % 4)).toNat / 256

end Sys2Proof.Machine
end

