-- ==== Sys2Proof/Machine/State.lean ====
section
/-! DEFINITION. The state of the module as plain data: every register, memory, queue, counter, mode and pin the spec
names, the reasons a step can stop, and the state after reset. Where a thing is one of many (8,192 cores, 4,096 contexts)
it is held in a `Map` from its index, and an unlisted index is in its state after reset. -/

namespace Sys2Proof.Machine

/-! ## Cores (R84, R86, R116) -/

/-- What a core is doing (R102, R103, R108, R117, R118). `off`: clocks stopped, no step runs on it. -/
inductive Run where
  | off
  | running
  | halted
  | atBarb (id : Byte)
  | atBard (id : Byte)
  | faulted (code : Byte)
  deriving DecidableEq, Repr

/-- The state of an infeed slot (R86, R95). -/
inductive Fill where
  | empty
  | filling
  | full
  deriving DecidableEq, Repr

/-- An infeed slot: its state, the tag of its fill, its 8 KiB (R86, R95), and its uncorrectable 16-byte words (R108). -/
structure Slot where
  fill : Fill := .empty
  tag  : Half := 0
  data : List Host.Cell := []
  badWords : List Nat := []
  deriving DecidableEq, Repr

/-- One entry of an accumulator tile: significand, window exponent, kerf flag (R60). -/
structure Entry where
  s : BitVec 112 := 0
  e : BitVec 10 := 0
  k : Bool := false
  deriving DecidableEq, Repr

/-- One entry of the loop stack (R84, R101). -/
structure Loop where
  start : Nat
  stop  : Nat
  count : Nat
  deriving DecidableEq, Repr

/-- An operation waiting in the tensor queue, with its operands as they stood at issue (R88, R121). -/
inductive TensorOp where
  | tmma (clear : Bool) (d : Nat) (ga gb imm : Word)
  | tclr (d : Nat)
  | tjoin (d : Nat) (ga imm : Word)
  | drain (d : Nat) (ga gb imm : Word) (m : BitVec 5)
  | exportTile (d : Nat) (ga imm : Word) (m : BitVec 5)
  | srel (slot : Nat)
  deriving DecidableEq, Repr

/-- A tensor-queue entry and the PC of its instruction (R121). -/
structure TensorEntry where
  pc : Nat
  op : TensorOp
  deriving DecidableEq, Repr

/-- A mover transfer (R139 to R141) or a logit send (R144) that counts among a core's outstanding transfers (R90).
Where its
source is remote, `next` is the first byte not yet asked for, `arrived` how many have been answered and `data` what they hold; `wnext` and
`warrived` are the same for a remote destination. -/
structure Xfer where
  id      : Nat
  send    : Bool
  src     : Dword
  dst     : Dword
  len     : Nat
  compOff : Nat
  compVal : Word
  fence   : Bool
  started : Bool := false
  next    : Nat := 0
  arrived : Nat := 0
  wnext   : Nat := 0
  warrived : Nat := 0
  data    : Bytes := []
  status  : Byte := 0
  deriving DecidableEq, Repr

/-- A core (R84). Register files are maps: g by number, p by number, v by 32·register + lane, acc by
256·tile + 16·row + column. `written` are the scratchpad ranges that the step has written, offset and length, whose contents
a fault leaves undefined (R109). `badWords`, `badImem` and `badTables` are the uncorrectable 16-byte words of the scratchpad, instructions
and 16-byte table entries (R108). `later` are the ranges that scalar and vector stores have written while entries waited in the tensor queue:
offset, length, and how many of the entries still there were waiting; `under` are the bytes of such stores that a drain has written over since,
which a further drain of those entries may still give way to (R136). -/
structure Core where
  run      : Run := .off
  g        : Map Word := []
  p        : Map Bool := []
  v        : Map Word := []
  acc      : Map Entry := []
  scratch  : List Host.Cell := []
  badWords : List Nat := []
  badImem  : List Nat := []
  badTables : List Nat := []
  written  : List (Nat × Nat) := []
  later    : List (Nat × Nat × Nat) := []
  under    : Map (Option Byte) := []
  slot0    : Slot := {}
  slot1    : Slot := {}
  loops    : List Loop := []
  pc       : Nat := 0
  cycles   : Dword := 0
  cycHi    : Word := 0
  kerf     : Bool := false
  arg0     : Word := 0
  arg1     : Word := 0
  faultPc  : Nat := 0
  faultAux : Half := 0
  tq       : List TensorEntry := []
  xfers    : List Xfer := []
  nextXfer : Nat := 0
  xferErr  : Option Byte := none
  deriving DecidableEq, Repr

/-- A fill descriptor (R151). -/
structure FillDesc where
  stream  : Nat
  tag     : Half
  offset  : Nat
  len     : Nat
  slotOff : Nat
  count   : Nat
  step    : Nat
  deriving DecidableEq, Repr

/-- A core row of a bay: what the row bus writes into all of its cores alike (instruction memory, tables), and the streamer's place in the row's fill list (R84, R95, R115, R150, R151, R160). -/
structure Row where
  idle     : Bool := true
  prog     : Nat := 0xFF
  imem     : Map Dword := []
  progLen  : Nat := 0
  tables   : List Host.Cell := []
  hasList  : Bool := false
  fills    : List FillDesc := []
  descAddr : Nat := 0
  descLeft : Nat := 0
  rep      : Nat := 0
  nextSlot : Nat := 0
  deriving DecidableEq, Repr

/-! ## Bays (R26, R115, R149 to R164, R193, R206, R236) -/

/-- One 512-byte flit of a stream, from controller `ctl` (R161). `kept` are the 64-byte pieces of it that its stage holds (R157). -/
structure StreamFlit where
  stream : Nat
  index  : Nat
  bytes  : Bytes
  ctl    : Nat := 0
  kept   : List Nat := [0, 1, 2, 3, 4, 5, 6, 7]
  deriving DecidableEq, Repr

/-- A stream's stage in a bay: its size in flits, the flits it holds, and the freed 64-byte pieces not yet returned (R149, R157,
R162). -/
structure Stage where
  stream   : Nat
  size     : Nat
  flits    : List StreamFlit
  unreturned : Nat
  ctl      : Nat
  deriving DecidableEq, Repr

/-- A slice descriptor that LSEND sent (R144, R206). -/
structure SliceDesc where
  core : Nat
  id   : Nat
  part : Nat
  ctx  : Nat
  off  : Nat
  base : Nat
  count : Nat
  fp32 : Bool
  last : Bool
  deriving DecidableEq, Repr

/-- One entry of a translation cache slice: partition and span page to frame (R193). -/
structure JoistEntry where
  part  : Nat
  page  : Nat
  frame : Nat
  deriving DecidableEq, Repr

/-- A bay: its core-visible partition registers, buffer, sequencer, streamer, mover queues and cache slice. `token` is the
barrier token that the root has from it, `release` the root's release on its way: whether the ids agree (R103), `misses` the partition and
span page of each refill that found no valid entry, for the access that waits for it (R194). -/
structure Bay where
  py        : Word := 0
  pk        : Word := 0
  part      : Word := 0xFFFF_FFFF
  buffer    : List Host.Cell := []
  resident  : Option (Nat × Word) := none
  loaded    : Bool := false
  token     : Option Byte := none
  release   : Option Bool := none
  stages    : List Stage := []
  inflight  : List StreamFlit := []
  posts     : List (Nat × Bytes) := []
  slices    : List SliceDesc := []
  suCredit  : Map Nat := []
  joist     : List JoistEntry := []
  misses    : List (Nat × Nat) := []
  deriving DecidableEq, Repr

/-! ## Contexts, queues, partitions -/

/-- The states of a sequence context (R318), coded in PT_CTX_INFO in this order (log 12). -/
inductive CtxState where
  | free
  | bound
  | active
  | parked
  | closing
  | faulted
  deriving DecidableEq, Repr

/-- The sampling parameter block (R211). -/
structure Params where
  seed     : Dword := 0
  temp     : Word := 0
  topP     : Word := 0
  topK     : Nat := 0
  window   : Nat := 0
  rho      : Word := 0
  alpha    : Word := 0
  vocab    : Nat := 0
  grammar  : Nat := 0xFF
  report   : Bool := false
  gstate   : Word := 0
  deriving DecidableEq, Repr

/-- How a row of logits stands with its grammar and its record when its engine has loaded (R221, R225, R228). -/
inductive RowMask where
  | loading
  | ok
  | absent
  | grammarError
  | recordError
  deriving DecidableEq, Repr

/-- A row engine's row (R207 to R210): the logits received by index, widened to FP32. -/
structure Engine where
  part   : Nat
  ctx    : Nat
  row    : Nat
  logits : Map (Option Word)
  count  : Nat
  last   : Bool
  mask   : RowMask
  deriving DecidableEq, Repr

/-- A sequence context (R190, R211, R318). `pages` maps a logical page to its frame; `joistPages` maps a joist page to
its two frames, `record` holds the frames of the record's two copies. -/
structure Ctx where
  state      : CtxState := .free
  part       : Nat := 0
  slot       : Option Nat := none
  params     : Params := {}
  n          : Dword := 0
  ring       : List Word := []
  gstate     : Word := 0
  pages      : Map Nat := []
  joistPages : Map (Nat × Nat) := []
  record     : Option (Nat × Nat) := none
  spill      : Option Engine := none
  deriving DecidableEq, Repr

/-- A completion (R311). -/
structure Cpl where
  result : Word := 0
  detail : Word := 0
  cid    : Half := 0
  status : Byte := 0
  kerf   : Bool := false
  fault  : Bool := false
  aux    : Half := 0
  deriving DecidableEq, Repr

/-- How far an accepted command has come (R314): `copying` is a started COPY with the bytes of its host or
remote source, the first byte not yet asked of a remote end, the bytes that it has answered for and its first error;
`waiting` is a CLOSE or PARK that waits for the COPYs accepted before number `upTo`, with the slot that PARK released, or 1 where
CLOSE met a FAULTED context; `done` holds the completion that is due. -/
inductive CmdPhase where
  | accepted
  | started
  | waiting (slot upTo : Nat)
  | copying (data : Bytes) (next arrived : Nat) (status : Byte)
  | done (c : Cpl)
  deriving DecidableEq, Repr

/-- An accepted command: its place in the partition's order of acceptance, and its 64 bytes (R309, R314). -/
structure Cmd where
  seq   : Nat
  bytes : Bytes
  phase : CmdPhase
  deriving DecidableEq, Repr

/-- A queue pair (R306 to R308, R438). `posted` are the entries that the driver placed between the module's head and the
tail it rang; `accepted` are the commands that have not completed. -/
structure Queue where
  port     : Option (Fin 4) := none
  part     : Nat := 0
  sqBase   : Dword := 0
  sqSize   : Nat := 0
  cqBase   : Dword := 0
  cqSize   : Nat := 0
  vector   : Word := 0xFFFF_FFFF
  weight   : Nat := 1
  timeout  : Word := 0
  shed     : Nat := 0
  sqHead   : Nat := 0
  sqTail   : Nat := 0
  cqTail   : Nat := 0
  cqHead   : Nat := 0
  phase    : Bool := true
  posted   : List Bytes := []
  cmds     : List Cmd := []
  msiSent  : Bool := false
  deleting : Bool := false
  deriving DecidableEq, Repr

/-- A loaded grammar (R221, R222): where its image lies and the header fields the unit needs. -/
structure Grammar where
  addr   : Nat
  bases  : Nat
  states : Nat
  start  : Nat
  vocab  : Nat
  baseOff : Nat
  stateOff : Nat
  excOff : Nat
  deriving DecidableEq, Repr

/-- A token-table entry of the running step (R217): its input fields as read at dispatch and the outputs committed. -/
structure Token where
  slot    : Nat
  ctx     : Nat
  drafts  : List Word
  input   : Bytes
  n0      : Dword
  status  : Byte
  emitted : List Word
  closed  : Bool
  rowsDone : Nat
  final   : Word
  logprob : Word
  nucleus : Word
  deriving DecidableEq, Repr

/-- What a running step is doing (R115, R117, R153, R108, R411). -/
inductive StepPhase where
  | loading
  | running
  | stopping
  deriving DecidableEq, Repr

/-- A core's fault as its sequencer reported it (R109). `place` orders cores by partition-relative row, x, r and c. -/
structure CoreFault where
  place  : Nat
  code   : Byte
  pc     : Nat
  aux    : Half
  deriving DecidableEq, Repr

/-- The step that a partition runs; `started` says that its cores have started (R72, R116); `job` and `map` are JOB_ID and JOB_MAP as they stood at its dispatch (R295; R111, R114, R118, R217, R314, R413).
`held` says that a stop waits for the firmware, which a restart keeps away (R256, R376), `cancelled` that the rows of the step were cancelled,
so that its open sequences stay uncommitted (R220, R228). -/
structure StepRun where
  queue  : Nat
  seq    : Nat
  image  : Nat
  build  : Dword
  phase  : StepPhase
  table  : Nat
  arg0   : Word
  arg1   : Word
  tokens : List Token
  groups : Bytes
  job    : Nat
  map    : Bytes
  faults : List CoreFault
  ends   : List Byte
  dataErr : Bool
  collAbort : Option (Nat × Byte)
  held   : Bool := false
  cancelled : Bool := false
  started : Bool := false
  deriving DecidableEq, Repr

/-- A collective request waiting for admission: the posting core and its 64 bytes (R235, R239). -/
structure Post where
  core  : Nat
  bytes : Bytes
  deriving DecidableEq, Repr

/-- A partition (R47 to R49, R181, R191, R221, R239, R257, R314 to R317, R417, R421). Its registers are dictionary
objects, its state among them; `results` is PT_RESULT by port, `prev` the state that a reset left, `drain` and `after` the
PART_SHORE_WHY bits of the reasons it drains for and of those that apply once a formation or a reset completes, `valid` holds the CRC of the image last validated at an address (R113), `turn` and
`used` the place of the weighted round robin over its queues, `rotor` the controller from which its free ring hands out the next frame (R183), and `releasing` says that
its release waits for accesses in progress to its extents (R425). -/
structure Part where
  extents  : List Nat := []
  pool     : List Nat := []
  ring     : List Nat := []
  rotor    : Nat := 0
  results  : Map Nat := []
  prev     : Nat := 0
  drain    : Nat := 0
  after    : Nat := 0
  grammars : Map (Option Grammar) := []
  valid    : Map (Option Word) := []
  step     : Option StepRun := none
  boundary : Option (Nat × Nat) := none
  turn     : Nat := 0
  used     : Nat := 0
  order    : Nat := 0
  ticket   : Nat := 0
  posts    : List Post := []
  seqNext  : Map Nat := []
  seqLast  : Map (Option Nat) := []
  epochs   : List (Nat × Dword) := []
  gens     : List (Nat × Dword) := []
  edgeWait : Bool := false
  resetAt  : Dword := 0
  releasing : Bool := false
  deriving DecidableEq, Repr

/-! ## Memory controllers, sampler units, the Truss engine -/

/-- A stream context of a controller (R149, R154, R161): source, length and next flit, destinations and their credit. `served` are its flits
of the arbiter's round (R163); `failed` says that it has met an uncorrectable burst (R166). -/
structure StreamCtx where
  part   : Nat
  stream : Nat
  src    : Nat
  len    : Nat
  next   : Nat
  weight : Nat
  dests  : List Nat
  credit : Map Nat
  served : Nat := 0
  failed : Bool := false
  deriving DecidableEq, Repr

/-- A memory controller (R154, R198, R203). `ceRows` remembers, for the 24-hour rule of R176, corrected bursts and the
uptime of each; `round` are the partitions that have read a stream flit in the arbiter's round (R163). -/
structure Mc where
  streams  : Map (Option StreamCtx) := []
  round    : List Nat := []
  scrub    : List Nat := []
  ceRows   : List (Nat × Dword) := []
  deriving DecidableEq, Repr

/-- A sampler unit (R206, R207, R225, R227): its descriptor queue, its row engines (most recently used first), its mask cache of base
bitmaps (partition, slot, set), most recently used first, and the partitions that share its intake with the cycles that each has had since they
last were others. -/
structure Su where
  descs   : List SliceDesc := []
  engines : List Engine := []
  masks   : List (Nat × Nat × Nat) := []
  sharers : List Nat := []
  spent   : Map Nat := []
  deriving DecidableEq, Repr

/-- A layout of the group list (R233). -/
structure Layout where
  base   : Nat := 0
  piece  : Nat := 0
  inner  : Nat := 0
  outer  : Nat := 0
  istride : Nat := 0
  ostride : Nat := 0
  deriving DecidableEq, Repr

/-- A collective's request (R235). -/
structure CollReq where
  op     : Nat
  fmt    : Nat
  group  : Nat
  depth  : Nat
  ticket : Nat
  chunk  : Nat
  len    : Nat
  keys   : Nat
  src    : Nat
  dst    : Nat
  stg    : Nat
  key    : Nat
  cap    : Nat
  cntOff : Nat
  bays   : BitVec 64
  rows   : Byte
  flagOff : Nat
  flagBase : Nat
  doneOff : Nat
  tc     : Nat
  deriving DecidableEq, Repr

/-- What a collective holds for one peer (R242, R245, R246, R249, R252 to R254). `rows` are the rows that it is to be sent,
`chunks` the chunks, `got` the ranges received of a chunk that is not whole, by chunk, `told` the count that it gave, `count` the count that it
is to be told, `dup` the ranges received again of a chunk that was whole, and `used` the link by which each chunk last left. -/
structure Peer where
  member  : Nat
  rack    : Nat
  module  : Nat
  credit  : Nat := 0
  granted : Nat := 0
  next    : Nat := 0
  chunks  : Nat := 0
  rows    : Nat := 0
  acked   : List Nat := []
  resent  : List Nat := []
  got     : Map (List (Nat × Nat)) := []
  whole   : List Nat := []
  told    : Option Nat := none
  count   : Nat := 0
  dup     : Map (List (Nat × Nat)) := []
  used    : Map (Option Nat) := []
  deriving DecidableEq, Repr

/-- An admitted collective in one of the 32 contexts (R240, R248). `ready` are the result chunks whose contributions are
complete, in that order, `units` the complete units, `flagged` the last count written as a flag and `turn` the place in `peers` at which the
sender looks next (R249). -/
structure Coll where
  part   : Nat
  core   : Nat
  req    : CollReq
  src    : Layout
  dst    : Layout
  stg    : Layout
  key    : Layout
  seq    : Nat
  me     : Nat
  size   : Nat
  peers  : List Peer
  ready  : List Nat
  units  : List Nat
  flagged : Nat
  badCount : Bool
  turn    : Nat := 0
  deriving DecidableEq, Repr

/-! ## Links and requests (R260 to R295) -/

/-- A packet in a station's queue: its header flit, its data, the partition that it is queued for (8 for a forwarded packet),
the bay that it came from (64 for none), and the link and VC in whose receive buffer a forwarded packet still lies (R268, R285). -/
structure Packet where
  h    : Header
  data : Bytes
  part : Nat
  bay  : Nat
  came : Option (Nat × Nat) := none
  deriving DecidableEq, Repr

/-- A packet that a link is receiving: the VC and the length in flits that its header gave, the flits still to come, and whether an uncorrectable
codeword has taken some of it (R262, R263). -/
structure Frame where
  vc    : Nat
  flits : Nat
  left  : Nat
  lost  : Bool
  deriving DecidableEq, Repr

/-- A Tenon link's own state; LINK_STATE and the counters are dictionary objects (R262, R263, R272, R273, R286, R290, R291,
R363, R367). `far` is the last valid IDENT of this training, `mate` that of the far end with which the link was last UP,
`training` the rate it is training at (0 none, 1 T1, 2 T2), `began` the LINK_STATE in which the retrain in progress
(`retrain`, `accept`) found it, `missed` whether its last training reached none of the rates that it may try (R261, R362), `auto` whether the module retrains it by itself, `cwNext` the codeword count due next, `uncorr` the times of
the uncorrectable codewords of the last 1 ms, `frame` the packet that it is receiving, `torn` whether flits may follow that belong to a packet whose
header was lost, `turn` and `vcTurn` the round robins over partitions and over VCs. -/
structure Link where
  far      : Option Ident := none
  mate     : Option Ident := none
  training : Nat := 0
  began    : Nat := 0
  retrain  : Bool := false
  accept   : Bool := false
  missed   : Bool := false
  auto     : Bool := false
  attempt  : Nat := 0
  sent     : Map Half := []
  farFreed : Map Half := []
  arrived  : Map Half := []
  freed    : Map Half := []
  sinceCredit : Map Nat := []
  out      : Map (List Packet) := []
  cwNext   : Option (BitVec 10) := none
  uncorr   : List Dword := []
  soakErrs : Nat := 0
  frame    : Option Frame := none
  torn     : Bool := false
  turn     : Map Nat := []
  vcTurn   : Nat := 0
  deriving DecidableEq, Repr

/-- Who waits for a remote request's reply (R278): a core's transfer, a COPY command by queue and order number, or nobody any more, since the
partition that asked has been released. -/
inductive Asker where
  | xfer (core id : Nat)
  | copy (queue seq : Nat)
  | gone
  deriving DecidableEq, Repr

/-- An outstanding remote request (R278, R279). -/
structure Request where
  tag     : Word
  who     : Asker
  part    : Nat
  gen     : BitVec 12
  station : Nat
  flits   : Nat
  isRead  : Bool
  offset  : Nat
  len     : Nat
  deriving DecidableEq, Repr

/-- A request that a station serves (R280): the header that asked, the link it came from and the reply's status and
data. `due` holds a WRITE's data, or nothing, while the access itself waits for a refill or a retrain (R194, R366). -/
structure Serving where
  h      : Header
  station : Nat
  part   : Nat
  status : Byte
  data   : Bytes
  due    : Option Bytes := none
  deriving DecidableEq, Repr

/-- The Tenon stations' shared state: outstanding requests, quarantined tags, reply pools, requests being served (R278,
R280); the cabling plan and the modules that the last passing PLUMB took (R287, R288). -/
structure Net where
  nextTag  : Word := 0
  requests : List Request := []
  quarantine : List Word := []
  pools    : Map Nat := []
  serving  : List Serving := []
  plan     : Bytes := []
  populated : Nat := 0
  deriving DecidableEq, Repr

/-! ## Host ports -/

/-- A host port (R296 to R302, R305, R319, R320, R344, R378, R380). Its mortise registers lie in `State.regs`. `holdLeft` is what was
left of the hold time, in ms, when ATTACH last stopped it, `emu` the queue of emulated writes that the firmware has not taken, `deletes` the queue of the DELETE that
QS_RESULT tells of, `lanes` and
`rate` (GT/s) the width and rate at which its link has trained, 0 before it is known to have, `msix` the bytes of the MSI-X table where they differ from
its reset contents, or, with `unmasked`, from those with every vector unmasked, and `pba` its pending bits (R298; log 161). -/
structure Port where
  hbTime  : Dword := 0
  bme     : Bool := false
  holding : Bool := false
  holdFrom : Dword := 0
  holdLeft : Nat := 0
  timeHi  : Word := 0
  barSize : Nat := 0x4000_0000
  mbReq   : Bytes := []
  mbRsp   : Bytes := []
  logging : Bool := false
  emu     : List Instr := []
  deletes : Option Nat := none
  lanes   : Nat := 0
  rate    : Nat := 0
  unmasked : Bool := false
  msix    : List Host.Cell := []
  pba     : List Host.Cell := []
  deriving DecidableEq, Repr

/-! ## The dictionary's channels (R334, R335, R338 to R342) -/

/-- Who a partial write, a snapshot or a session belongs to (R334, R341): a channel (0 the management port, 1 to 4 the
mailboxes, 5 the service port) with a source, or a session place. -/
structure Holder where
  chan    : Nat
  addr    : BitVec 128
  port    : Half
  session : Word
  deriving DecidableEq, Repr

/-- A value of a dictionary object (R322). -/
inductive Val where
  | num (n : Nat)
  | blob (bs : Bytes)
  deriving DecidableEq, Repr

/-- A session place (R338 to R341). `phase` is 0 free, 1 PENDING, 2 OPEN. -/
structure Session where
  phase   : Nat := 0
  id      : Word := 0
  chan    : Nat := 0
  addr    : BitVec 128 := 0
  port    : Half := 0
  root    : Nat := 0xFF
  nonce   : Bytes := []
  lastSeq : Word := 0
  lastTrans : Half := 0
  lastResp : Bytes := []
  lastAt  : Dword := 0
  deriving DecidableEq, Repr

/-- A value being written in segments (R334); `index` is the object, or 0 with `proof` set for SESSION_PROVE. -/
structure Partial where
  holder : Holder
  transaction : Half
  proof  : Bool
  key    : Nat
  total  : Nat
  bytes  : Bytes
  deriving DecidableEq, Repr

/-- A read snapshot (R335). -/
structure Snap where
  holder : Holder
  transaction : Half
  key    : Nat
  bytes  : Bytes
  deriving DecidableEq, Repr

/-- The dictionary's sessions and partial accesses. `fails` are the times of failed proofs, `locked` when the lockout began, `secondGone` whether the second
address was given up (R329). -/
structure Dict where
  sessions : Map Session := []
  fails    : List Dword := []
  locked   : Option Dword := none
  usedNonces : List Bytes := []
  partials : List Partial := []
  snaps    : List Snap := []
  secondGone : Bool := false
  deriving DecidableEq, Repr

/-! ## The Scribe (R459 to R468) -/

/-- A Scribe entry (R459). -/
structure Event where
  seq   : Word
  stamp : Word
  code  : Half
  boot  : Half
  supp  : Half
  args  : List Word
  deriving DecidableEq, Repr

/-- The recorder: areas (oldest first), the tokens of the buckets that events have taken from, by code, with the pairs of SCR_RATE and SCR_RATE_OVR that
were in force before the present one since every bucket was full (R464), pending counts, the CTRL cycle in which it recorded last with the codes
that it recorded then (R460), and what flash holds. -/
structure Scribe where
  general : List Event := []
  first   : Map (List Event) := []
  last    : Map (List Event) := []
  tokens  : Map (Option Nat) := []
  rates   : List (Nat × Bytes) := []
  pending : Map Nat := []
  cycle   : Dword := 0
  posted  : List Nat := []
  flashSeq : Word := 0
  flashFirst : Map (List Event) := []
  flashLast : Map (List Event) := []
  deriving DecidableEq, Repr

/-! ## Raising, firmware, security -/

/-- A request that waits for the channel whose retrain runs (R366): a host's read or write through the aperture of a port, with the partition and
the address that it reached; a burst request at a controller; a packet of a collective of a partition. -/
inductive Held where
  | read (port part addr len : Nat)
  | write (port part addr : Nat) (data : Bytes)
  | burst (n : Fin 24) (q : MemReq) (e : Ecc)
  | packet (part : Nat) (h : Header) (data : Bytes)
  deriving DecidableEq, Repr

/-- How a raising step ended last (R351, R352). -/
inductive Outcome where
  | none
  | done
  | failed (reason : Byte)
  deriving DecidableEq, Repr

/-- Raising (R349 to R369). `steps` is by step code. `running` is the step that runs and its port, `stepAt` when it began, `retrain` the command, unit
(channel or link) and port of the retrain that runs, `cmd` each port's last command, `orphan` whether the owner's host has been lost since, `full` whether the CORE_TEST that runs is a full one, `tested` whether a full test has recorded
the pass map. `record` is the stored training record:
grade and temperature in thousandths of a degree. `held` are the requests that wait for the channel whose retrain runs, oldest first (R366), `grade`
the MEM_GRADE_SET that MEM_TRAIN_A found (R170), `waits` whether stage 5 has kept the step that runs from beginning its work (R442). -/
structure Raising where
  steps    : Map Outcome := []
  lastStep : Nat := 0
  running  : Option (Nat × Nat) := none
  retrain  : Option (Nat × Nat × Nat) := none
  cmd      : Map Nat := []
  orphan   : Bool := false
  cold     : Bool := true
  full     : Bool := true
  record   : Option (Nat × Int) := none
  hottest  : Int := 0
  tested   : Bool := false
  failedCh : List Nat := []
  repairs  : List (Nat × Nat) := []
  retired  : List (Nat × Nat) := []
  soft     : List (Byte × Half × Word) := []
  started  : Dword := 0
  stepAt   : Dword := 0
  held     : List Held := []
  grade    : Nat := 0
  waits    : Bool := false
  deriving DecidableEq, Repr

/-- Which image the management core runs (R347, R370, R391). -/
inductive Image where
  | none
  | rom
  | boot
  | runtime
  | recovery
  deriving DecidableEq, Repr

/-- A boot or runtime image that the module holds: its bytes. -/
abbrev ImageBytes := Bytes

/-- An update transfer (R384): its source, length, bytes so far, whether it is FULL, the state it returns to, and the image that is being
written once END was answered with OK. -/
structure Update where
  addr  : BitVec 128
  port  : Half
  total : Nat
  bytes : Bytes
  full  : Bool
  prev  : Nat
  apply : Option ImageBytes := none
  deriving DecidableEq, Repr

/-- The management core (R371 to R391). `held` is the held store, `runs` the runtime image that runs or ran last, as it was when it started (R373, R392), `coming` the image
that LOAD_FW is to copy into the held store, `bankA` and `bankB` the boot image banks, `candidate` the bank of the candidate, `boot` the
boot image that runs or ran last since the reset, `expired` the commands, by queue and order number, whose timers expired during a restart (R376), `hung` whether the firmware has stopped making progress (R378), `starting` the bank whose image
the ROM has started and that has not marked itself serving, `began` whether the runtime image has started since the last reset, `service` the RS_SERVICE
that a LOAD_FW brings back, `armed` when the update window was opened and for how many seconds, `confirmed` the settings of the confirmed image while a candidate is
on trial (R387). -/
structure Fw where
  image    : Image := .none
  busy     : Bool := false
  hung     : Bool := false
  held     : Option ImageBytes := none
  runs     : ImageBytes := []
  coming   : ImageBytes := []
  began    : Bool := false
  service  : Option Nat := none
  restarts : List Dword := []
  loadedSince : Bool := false
  stormBefore : Bool := false
  bankA    : Option ImageBytes := none
  bankB    : Option ImageBytes := none
  candidate : Nat := 1
  boot     : Option ImageBytes := none
  expired  : List (Nat × Nat) := []
  starting : Option Nat := none
  update   : Option Update := none
  armed    : Option (Dword × Nat) := none
  lastErr  : Nat := 0
  confirmed : Option (Map Val) := none
  trialWrites : Nat := 0
  deriving DecidableEq, Repr

/-- The key engine and its state in module flash and the key store (R393 to R403). `copyA` and `copyB` are the valid copies of the reserved top, each
with its sequence number; `signing` is the quote that is being signed: its leaf index, its body, and who waits for the answer; `signed` says that its
signature is finished and waits for the firmware (R403). -/
structure Sec where
  next     : Nat := 0
  treeBuilt : Bool := false
  copyA    : Option (Nat × Nat) := none
  copyB    : Option (Nat × Nat) := none
  floorBits : Nat := 1
  lowNoted : Bool := false
  signing  : Option (Nat × Bytes × Option (Holder × Msg)) := none
  signed   : Bool := false
  lastQuote : Option Dword := none
  deriving DecidableEq, Repr

/-! ## Power, clocks, pins, fuses -/

/-- Power, cooling and temperature (R436 to R458). Limits on ARITH are kept as the m of R471, out of 256; temperatures in
thousandths of a degree, the inlet and outlet as R488 gives them; `last` holds the reading of each diode in the sample before. `coolStop` and `coolInlet` are the two
causes of COOLING, `flows` the valid flow readings of the last second, in mL/min, the newest first (R449), `coolFor` the samples in a row in which the hottest spot has stayed 2 °C below its limit, and `resting` says that the
firmware has taken stage 5's actions: main memory in self-refresh, requests fenced, patrol and scrubbing paused (R437, R442). -/
structure Power where
  overvolt  : Bool := false
  powerM    : Nat := 256
  thermalM  : Nat := 256
  braceIn   : Bool := false
  braceAt   : Dword := 0
  braceHalf : Bool := false
  braceOver : Bool := false
  coolBrace : Bool := false
  coolStop  : Bool := false
  coolInlet : Bool := false
  flowOn    : Bool := false
  inletOn   : Bool := false
  inlet     : Int := 0
  outlet    : Int := 0
  flow      : Nat := 0
  flows     : List Nat := []
  last      : Map (Option Int) := []
  coolFor   : Nat := 0
  resting   : Bool := false
  deriving DecidableEq, Repr

/-- Rack time, the time since the cold start, and the value of CLK_TIME_SET that waits for the second mark (R327, R473 to R475). `loaded`
says that a mark has loaded rack time. -/
structure Clock where
  time    : Dword := 0
  up      : Dword := 0
  setTo   : Option Dword := none
  loaded  : Bool := false
  deriving DecidableEq, Repr

/-- The pins and the rails (R428, R444, R456, R484 to R486). `wake` says whether WAKE_N is asserted, and `wakeOff`
for how many ms it was seen to be deasserted before (R485). `departAt` is when a departure began whose flush of the Scribe is still to be done (R428,
R494). `lastOff` is the conversion controller's latch, and `trip` the spot and diode of a
trip that the next start records. -/
structure Pins where
  inReset  : Bool := true
  wake     : Bool := false
  wakeOff  : Nat := 0
  latch    : Bool := true
  departed : Bool := false
  departAt : Option Dword := none
  tripHeld : Bool := false
  lastOff  : Nat := 0
  trip     : Option (Nat × Nat) := none
  straps   : Straps := ⟨0, 0, 0⟩
  deriving DecidableEq, Repr

/-- The fuse block (R353): what the part carries. `spare`, `lanes`, `repairs` and `bayRepairs` are by field index, and list used fields
alone; `badCrc` is a region whose CRC fails. -/
structure Fuses where
  serial   : Dword := 0
  variant  : Nat := 1
  stepping : Nat := 1
  grade    : Nat := 3
  badCrc   : Option Nat := none
  spare    : Map Nat := []
  lanes    : Map Nat := []
  repairs  : Map Half := []
  bayRepairs : Map Half := []
  rollback : Nat := 0
  deriving DecidableEq, Repr

/-! ## What the module puts out -/

/-- One thing the module has sent (model's own record of its outputs, log 3). -/
inductive Sent where
  /-- bytes written to host memory at a bus address (completions R311, log entries R381, COPY R310) -/
  | hostWrite (port : Nat) (addr : Dword) (data : Bytes)
  /-- an MSI-X message of a vector: the address and the data of its entry in the port's table (R298, R308) -/
  | msix (port : Nat) (vector : Word) (addr : Dword) (data : Word)
  /-- the data of a read that the host made, or `none` for Completer Abort (R299) -/
  | hostRead (port : Nat) (data : Option Bytes)
  /-- a completion that could not be written (R319) -/
  | dropped (port : Nat) (cid : Half)
  /-- a Phophor response (R327, R333) on a channel to a source, from a UDP port of the module (0 on a mailbox) -/
  | phophor (h : Holder) (port : Nat) (bytes : Bytes)
  /-- an answer to an update datagram (R384) -/
  | update (addr : BitVec 128) (port : Half) (bytes : Bytes)
  /-- Neighbor Discovery and echo answers, and a solicitation of Duplicate Address Detection (R329) -/
  | neighbor (addr target : BitVec 128)
  | solicit (target : BitVec 128)
  | echoReply (addr : BitVec 128) (payload : Bytes)
  /-- a packet, and a control flit, on a link (R264, R267) -/
  | packet (link : Nat) (p : Packet)
  | idle (link : Nat)
  | ident (link : Nat) (i : Ident)
  | credit (link : Nat) (freed : List Half)
  | audit (link : Nat) (sent : List Half)
  | depart (link : Nat) (serial : Dword)
  /-- the end of an access into a domain whose clock is stopped: TIMEOUT at a mesh requester, a bus error (none) at the management core (R476) -/
  | crossed (status : Option Byte)
  /-- the end of an access of the management core to the absolute view, outside main memory: its address, its status and a read's bytes (R44, R45) -/
  | access (addr : Nat) (status : Byte) (data : Bytes)
  /-- TRIP_N asserted (R456), a flow request in L/min, FP32 (R450) -/
  | tripN
  | flowRequest (litres : Word)
  deriving DecidableEq, Repr

/-! ## The whole -/

/-- The module. `scrubExt` are the extents that wait for the release scrub, in the order of their release, and `scrubbed` the controllers that have
zeroed their part of one (R203). -/
structure State where
  pending : List Instr := []
  free    : Nat := 0
  sent    : List Sent := []
  objs    : Map Val := []
  regs    : Map Nat := []
  mem     : List Host.Cell := []
  bad     : List Nat := []
  tiers   : Map Nat := []
  scrubExt : List Nat := []
  scrubbed : Map (List Nat) := []
  cores   : Map Core := []
  rows    : Map Row := []
  bays    : Map Bay := []
  parts   : Map Part := []
  ctxs    : Map Ctx := []
  queues  : Map Queue := []
  ports   : Map Port := []
  mcs     : Map Mc := []
  sus     : Map Su := []
  colls   : Map (Option Coll) := []
  links   : Map Link := []
  net     : Net := {}
  dict    : Dict := {}
  scribe  : Scribe := {}
  raising : Raising := {}
  fw      : Fw := {}
  sec     : Sec := {}
  power   : Power := {}
  clock   : Clock := {}
  pins    : Pins := {}
  fuses   : Fuses := {}
  deriving DecidableEq, Repr

/-- Reasons the machine could stop with a fault. No meaning raises one: every failure the spec describes (a core fault,
a status, an abort code) is state or output. -/
inductive Fault where
  /-- never raised: kept so that the type of outcomes has a case; safe -/
  | noSuchStep
  deriving DecidableEq, Repr

/-- Reasons the model could refuse a command. -/
inductive Refusal where
  /-- the command's meaning is not modelled yet, by its mnemonic; raised by arms of `exec` only; safe -/
  | notModelled (mnemonic : String)
  deriving DecidableEq, Repr

/-- The module right after a cold reset (R407): rails up, held in reset until LEAVE_RESET, every object and register at
its Default, nothing in any memory, and the values that the log names where the spec gives none (log 1). Two Defaults follow from
the fuses: MEM_GRADE_SET is the fused grade (R204) and PWR_LIMIT is FUSE_POWER_MAX (R458). -/
def State.reset : State := { objs := [(0x50_0002, .num 10667), (0x60_0300, .num 1250)] }

end Sys2Proof.Machine
end

