-- ==== Sys2Proof/Machine/Image.lean ====
section
/-! DEFINITION. Step program images: header, sections, stream list and group list (R111 to R113, R148 to R152, R232 to
R234). An image is its bytes. -/

namespace Sys2Proof.Machine

/-! ## Sections (R111, R112) -/

/-- A section: its type, flags, offset, size and param. -/
structure Section where
  type  : Nat
  flags : Nat
  off   : Nat
  size  : Nat
  param : Nat
  deriving DecidableEq, Repr

/-- The image size that a header states. -/
def imageSize (img : Bytes) : Nat := field img 8 4
/-- The rows k of an image. -/
def imageRows (img : Bytes) : Nat := field img 0xC 1
/-- The CRC of an image. -/
def imageCrc (img : Bytes) : Word := BitVec.ofNat 32 (field img 0x14 4)
/-- The build identifier of an image. -/
def imageBuild (img : Bytes) : Dword := BitVec.ofNat 64 (field img 0x18 8)

/-- The sections of an image. -/
def sectionsOf (img : Bytes) : List Section :=
  (List.range (field img 0xE 2)).map fun i =>
    let e := field img 0x10 4 + 16 * i
    ⟨field img e 2, field img (e + 2) 2, field img (e + 4) 4, field img (e + 8) 4, field img (e + 12) 4⟩

/-- A section's bytes. -/
def Section.bytes (x : Section) (img : Bytes) : Bytes := sub img x.off x.size

/-- The sections of a type. -/
def sectionsTyped (img : Bytes) (t : Nat) : List Section := (sectionsOf img).filter (·.type == t)

/-- The first section of a type. -/
def sectionBytes (img : Bytes) (t : Nat) : Option Bytes := ((sectionsTyped img t).head?).map (·.bytes img)

/-- Byte r of the bay map's entry of partition-relative bay 8py + x: the program of core row r, or 0xFF (R112). -/
def mapProgram (img : Bytes) (bay r : Nat) : Nat :=
  match sectionBytes img 2 with
  | some bs => field bs (8 * bay + r) 1
  | none => 0xFF

/-- Whether a header keeps R111. -/
def validHeader (img : Bytes) : Bool :=
  let size := imageSize img
  field img 0 4 == 0x5052535A && field img 4 1 == 1 && field img 6 2 == 64 && size % 16 == 0 &&
    decide (64 ≤ size ∧ size ≤ 2 ^ 28) && decide (1 ≤ imageRows img ∧ imageRows img ≤ 8) &&
    decide (1 ≤ field img 0xD 1 ∧ field img 0xD 1 ≤ 16) && decide (2 ≤ field img 0xE 2 ∧ field img 0xE 2 ≤ 256) &&
    field img 0x10 4 % 16 == 0 && zeros img 0x20 32

/-- Whether no two of a list of ranges, start and length, overlap; empty ranges overlap nothing. -/
def disjoint : List (Nat × Nat) → Bool
  | [] => true
  | (a, n) :: xs => (xs.all fun (b, m) => n == 0 || m == 0 || decide (a + n ≤ b) || decide (b + m ≤ a)) && disjoint xs

/-- Whether a section keeps R112 for its type; `progs` is the program count. -/
def validSection (img : Bytes) (x : Section) : Bool :=
  x.off % 16 == 0 && decide (x.off + x.size ≤ imageSize img) &&
  match x.type with
  | 1 => x.flags == 0 && decide (x.param < field img 0xD 1) && x.size % 8 == 0 && decide (8 ≤ x.size ∧ x.size ≤ 16384)
  | 2 =>
    x.flags == 0 && x.param == 0 && x.size == 64 * imageRows img &&
      (x.bytes img).all fun b => b == 0xFF || decide (b.toNat < field img 0xD 1)
  | 3 => x.flags == 0 && decide (x.param ≤ 3) && x.size == 1024
  | 4 => decide (x.flags ≤ 1) && x.param % 16 == 0 && decide (x.param + x.size ≤ 0x1_8000)
  | 5 | 6 => x.flags == 0 && x.param == 0
  | 7 => true
  | _ => false

/-! ## The stream list (R148 to R152) -/

/-- A stream descriptor (R149). -/
structure StreamDesc where
  row    : Bool
  line   : Nat
  feed   : Nat
  weight : Nat
  mask   : Nat
  stage  : Nat
  src    : Nat
  len    : Nat
  deriving DecidableEq, Repr

/-- The stream descriptors of a stream list. -/
def streamsOf (l : Bytes) : List StreamDesc :=
  (List.range (field l 0 2)).map fun i =>
    let d := field l 4 4 + 32 * i
    ⟨bit (field l d 1) 0, field l (d + 1) 1, field l (d + 2) 1, field l (d + 3) 1, field l (d + 4) 1, field l (d + 5) 1,
      field l (d + 8) 8, field l (d + 16) 4⟩

/-- The destinations of a stream, as partition-relative bays 8py + x. -/
def StreamDesc.dests (d : StreamDesc) (k : Nat) : List Nat :=
  if d.row then ((List.range 8).filter (bit d.mask ·)).map (8 * d.line + ·)
  else ((List.range k).filter (bit d.mask ·)).map fun py => 8 * py + d.line

/-- A fill descriptor at an offset of a stream list; a step of 0 means length / 64 (R151). -/
def fillAt (l : Bytes) (o : Nat) : FillDesc :=
  let len := field l (o + 8) 2
  let step := field l (o + 14) 2
  { stream := field l o 1, tag := BitVec.ofNat 16 (field l (o + 2) 2), offset := field l (o + 4) 4, len,
    slotOff := field l (o + 10) 2, count := field l (o + 12) 2, step := if step = 0 then len / 64 else step }

/-- The fill list of a core row, by (8py + x) × 8 + r: its offset and its count; no list has offset 0 (R150). -/
def rowEntry (l : Bytes) (i : Nat) : Nat × Nat :=
  let e := field l 8 4 + 8 * i
  (field l e 4, field l (e + 4) 4)

/-- The fills of a core row. -/
def rowFills (l : Bytes) (i : Nat) : List FillDesc :=
  let (off, n) := rowEntry l i
  if off = 0 then [] else (List.range n).map fun j => fillAt l (off + 16 * j)

/-- The last stream offset that a fill descriptor takes, in units of 64 bytes. -/
def FillDesc.last (f : FillDesc) : Nat := f.offset + (f.count - 1) * f.step

/-- Whether a stream descriptor keeps R146, R147 and R149. -/
def validStream (l : Bytes) (k i : Nat) : Bool :=
  let o := field l 4 4 + 32 * i
  match (streamsOf l)[i]? with
  | none => false
  | some d =>
    decide (field l o 1 ≤ 1) && zeros l (o + 6) 2 && zeros l (o + 0x14) 12 && decide (1 ≤ d.weight ∧ d.weight ≤ 15) &&
      decide (1 ≤ d.stage ∧ d.stage ≤ 64) && d.src % 512 == 0 && decide (1 ≤ d.len ∧ d.len ≤ 16777215) &&
      (if d.row then decide (d.line < k) && decide (d.feed ≤ 5)
      else decide (d.line ≤ 7) && decide (d.feed < if d.line = 0 ∨ d.line = 7 then 6 else 2) && d.mask / 2 ^ k == 0)

/-- Whether a fill of the list of bay `b` keeps R151 and R152. -/
def validFill (l : Bytes) (k b : Nat) (o : Nat) : Bool :=
  let f := fillAt l o
  match (streamsOf l)[f.stream]? with
  | none => false
  | some d =>
    zeros l (o + 1) 1 && f.len % 64 == 0 && decide (64 ≤ f.len) && f.slotOff % 64 == 0 &&
      decide (f.slotOff + f.len ≤ 8192) && decide (1 ≤ f.count) && decide (f.last * 64 + f.len ≤ d.len * 512) &&
      (d.dests k).contains b && decide (f.len ≤ d.stage * 4096)

/-- Whether stream offsets never decrease in a row list, stream by stream (R152). -/
def ascending (fs : List FillDesc) : Bool :=
  match fs with
  | [] => true
  | f :: rest =>
    (match rest.find? (·.stream == f.stream) with
    | some g => decide (f.last ≤ g.offset)
    | none => true) && ascending rest

/-- Whether a row entry and its list keep R150 to R152. -/
def validRow (l : Bytes) (k i : Nat) : Bool :=
  let (off, n) := rowEntry l i
  if off = 0 then n == 0
  else off % 16 == 0 && decide (off + 16 * n ≤ l.length) &&
    ((List.range n).all fun j => validFill l k (i / 8) (off + 16 * j)) && ascending (rowFills l i)

/-- Whether a stream list keeps R148 to R152. -/
def validStreams (l : Bytes) (k : Nat) : Bool :=
  let n := field l 0 2
  let st := field l 4 4
  let rt := field l 8 4
  decide (16 ≤ l.length) && decide (1 ≤ n ∧ n ≤ 384) && zeros l 2 2 && zeros l 12 4 && st % 16 == 0 && rt % 16 == 0 &&
    decide (st + 32 * n ≤ l.length) && decide (rt + 512 * k ≤ l.length) && (List.range n).all (validStream l k) &&
    (List.range (64 * k)).all (validRow l k) &&
    (List.range (8 * k)).all fun b =>
      decide ((((streamsOf l).filter fun d => (d.dests k).contains b).map fun d => d.stage * 4096).sum ≤ 2 ^ 19)

/-! ## The group list (R231 to R234) -/

/-- A group descriptor: base, extents and strides by axis (R231, R233). -/
structure Group where
  base   : List Nat
  ext    : List Nat
  stride : List Nat
  deriving DecidableEq, Repr

/-- A group descriptor of a group list. -/
def groupAt (l : Bytes) (g : Nat) : Group :=
  let d := field l 4 4 + 16 * g
  let three (o : Nat) : List Nat := [field l (d + o) 1, field l (d + o + 1) 1, field l (d + o + 2) 1]
  ⟨three 0, three 4, three 8⟩

/-- The group size. -/
def Group.size (g : Group) : Nat := g.ext.foldl (· * ·) 1

/-- The logical coordinate of a member (R231). -/
def Group.member (g : Group) (m : Nat) : List Nat :=
  let nx := g.ext.getD 0 1
  let ny := g.ext.getD 1 1
  let idx := [m % nx, m / nx % ny, m / (nx * ny)]
  (List.range 3).map fun a => g.base.getD a 0 + idx.getD a 0 * g.stride.getD a 1

/-- A layout descriptor of a group list (R233). -/
def layoutAt (l : Bytes) (i : Nat) : Layout :=
  let d := field l 8 4 + 32 * i
  ⟨field l d 8, field l (d + 8) 4, field l (d + 12) 2, field l (d + 14) 2, field l (d + 16) 4, field l (d + 20) 4⟩

/-- A layout's size in bytes. -/
def Layout.size (x : Layout) : Nat := x.piece * x.inner * x.outer

/-- The address of layout byte `u` (R233). -/
def Layout.addr (x : Layout) (u : Nat) : Nat :=
  let q := u / x.piece
  x.base + q / x.inner * x.ostride + q % x.inner * x.istride + u % x.piece

/-- The parts of `n` bytes of a layout from byte `u`, each in one piece: address and length. -/
def Layout.parts (x : Layout) (u n : Nat) : List (Nat × Nat) :=
  if x.piece = 0 then []
  else (List.range ((u + n + x.piece - 1) / x.piece - u / x.piece)).map fun i =>
    let lo := max u ((u / x.piece + i) * x.piece)
    (x.addr lo, min (u + n) ((u / x.piece + i + 1) * x.piece) - lo)

/-- Whether a group descriptor keeps R233 and is aligned under R232. -/
def validGroup (l : Bytes) (g : Nat) : Bool :=
  let d := field l 4 4 + 16 * g
  let x := groupAt l g
  zeros l (d + 3) 1 && zeros l (d + 7) 1 && zeros l (d + 11) 5 && (x.ext ++ x.stride).all (fun v => decide (1 ≤ v)) &&
    decide (x.size ≤ 256) && (List.range 3).all fun a =>
      decide (x.base.getD a 0 % (x.ext.getD a 1 * x.stride.getD a 1) < x.stride.getD a 1)

/-- Whether a layout descriptor keeps R233. -/
def validLayout (l : Bytes) (i : Nat) : Bool :=
  let x := layoutAt l i
  decide (x.base < 2 ^ 42) && x.base % 16 == 0 && x.piece % 16 == 0 && decide (16 ≤ x.piece ∧ x.piece ≤ 16777216) &&
    decide (1 ≤ x.inner) && decide (1 ≤ x.outer) && x.istride % 16 == 0 && x.ostride % 16 == 0 &&
    (x.inner == 1 || decide (x.piece ≤ x.istride)) &&
    (x.outer == 1 || decide ((x.inner - 1) * x.istride + x.piece ≤ x.ostride)) &&
    zeros l (field l 8 4 + 32 * i + 0x18) 8

/-- Whether a group list keeps R233 and R234. -/
def validGroups (l : Bytes) : Bool :=
  let g := field l 0 2
  let n := field l 2 2
  let gt := field l 4 4
  let lt := field l 8 4
  decide (16 ≤ l.length) && decide (1 ≤ g ∧ g ≤ 64) && decide (n ≤ 1024) && zeros l 12 4 && gt % 16 == 0 && lt % 16 == 0 &&
    (n != 0 || lt == 0) && decide (gt + 16 * g ≤ l.length) && decide (lt + 32 * n ≤ l.length) &&
    (List.range g).all (validGroup l) && (List.range n).all (validLayout l)

/-! ## Validation (R113, R152, R234) -/

/-- Whether an image is valid. -/
def validImage (img : Bytes) : Bool :=
  let xs := sectionsOf img
  let tbl := field img 0x10 4
  let progs := sectionsTyped img 1
  validHeader img && crcAt img 0x14 == imageCrc img && decide (tbl + 16 * xs.length ≤ imageSize img) &&
    xs.all (validSection img) && disjoint ((0, 64) :: (tbl, 16 * xs.length) :: xs.map fun x => (x.off, x.size)) &&
    ((List.range (field img 0xD 1)).all fun i => (progs.filter (·.param == i)).length == 1) &&
    (sectionsTyped img 2).length == 1 &&
    ((List.range 4).all fun i => decide (((sectionsTyped img 3).filter (·.param == i)).length ≤ 1)) &&
    decide ((sectionsTyped img 5).length ≤ 1) && decide ((sectionsTyped img 6).length ≤ 1) &&
    (match sectionBytes img 5 with | some l => validStreams l (imageRows img) | none => true) &&
    (match sectionBytes img 6 with | some l => validGroups l | none => true)

/-- The image's group list. -/
def imageGroups (img : Bytes) : Bytes := (sectionBytes img 6).getD []

end Sys2Proof.Machine
end

