-- ==== Sys2Proof/Machine/Maps.lean ====
section
/-! DEFINITION. Maps from an index to what is held there, in one canonical form: rising keys, and no entry equal to what
an unlisted index holds. Memories are maps from an address to a byte. -/

namespace Sys2Proof.Machine

/-- What map `m` holds at `i`; an unlisted index holds `d`. -/
def look {α : Type} (d : α) : Map α → Nat → α
  | [], _ => d
  | (k, v) :: m, i => if k = i then v else look d m i

/-- Entries for values `xs` at `i`, `i + 1`, …, without those equal to `d`. -/
def entries {α : Type} [DecidableEq α] (d : α) : Nat → List α → Map α
  | _, [] => []
  | i, x :: xs => if x = d then entries d (i + 1) xs else (i, x) :: entries d (i + 1) xs

/-- Map `m` with values `xs` written at `i`, `i + 1`, …. -/
def blit {α : Type} [DecidableEq α] (d : α) (m : Map α) (i : Nat) (xs : List α) : Map α :=
  m.filter (fun e => e.1 < i) ++ entries d i xs ++ m.filter (fun e => i + xs.length ≤ e.1)

/-- Map `m` with `x` written at `i`. -/
def put {α : Type} [DecidableEq α] (d : α) (m : Map α) (i : Nat) (x : α) : Map α := blit d m i [x]

/-- The values of `m` at `i` to `i + n − 1`. -/
def readMany {α : Type} (d : α) (m : Map α) (i : Nat) : Nat → List α
  | 0 => []
  | n + 1 => look d m i :: readMany d m (i + 1) n

/-- Whether keys rise strictly, the first of them at least `lo`, and no entry holds `d`: the canonical form. -/
def canonFrom {α : Type} [DecidableEq α] (d : α) : Nat → Map α → Bool
  | _, [] => true
  | lo, (k, v) :: m => decide (lo ≤ k) && decide (v ≠ d) && canonFrom d (k + 1) m

/-- A memory in canonical form; an unlisted byte reads zero (R172, R116, R407). -/
def Memory.wf (m : List Host.Cell) : Bool := canonFrom (0 : Byte) 0 m

/-- A byte of a memory. -/
def byteAt (m : List Host.Cell) (a : Nat) : Byte := look 0 m a

/-- `n` bytes of a memory from `a`. -/
def readBytes (m : List Host.Cell) (a n : Nat) : Bytes := readMany 0 m a n

/-- A memory with bytes written from `a`. -/
def writeBytes (m : List Host.Cell) (a : Nat) (bs : Bytes) : List Host.Cell := blit 0 m a bs

/-- A little-endian number of `n` bytes at `a` (R9). -/
def readNum (m : List Host.Cell) (a n : Nat) : Nat := leNat (readBytes m a n)

/-- A memory with `n` little-endian bytes of a number written at `a` (R9). -/
def writeNum (m : List Host.Cell) (a n v : Nat) : List Host.Cell := writeBytes m a (leBytes n v)

/-- A map with `i` to `i + n − 1` back at what an unlisted index holds. -/
def wipe {α : Type} (m : Map α) (i n : Nat) : Map α := m.filter (fun e => e.1 < i || i + n ≤ e.1)

/-- Change entry `i` of a map. -/
def modify {α : Type} [DecidableEq α] (d : α) (m : Map α) (i : Nat) (f : α → α) : Map α := put d m i (f (look d m i))

/-- The first element of a list that meets `p`, replaced by `f` of it. -/
def changeFirst {α : Type} (p : α → Bool) (f : α → α) : List α → List α
  | [] => []
  | x :: xs => if p x then f x :: xs else x :: changeFirst p f xs

end Sys2Proof.Machine
end

