-- ==== Sys2Proof/Machine/Numbers.lean ====
section
/-! DEFINITION. Number formats, exact values, rounding, the exact accumulator, XP128 and FP32 arithmetic (R51 to R80,
R124). A value is exact until the one place where it is rounded. -/

namespace Sys2Proof.Machine

/-! ## Formats -/

/-- The data formats by their codes (R124). -/
inductive Fmt where
  | bf16 | e4m3 | e5m2 | mxE4m3 | mxE5m2 | mxE2m3 | mxE3m2 | mxfp4 | int8 | int4 | fp16 | fp32 | int32
  deriving DecidableEq, Repr

/-- The format a code names; codes 0xD to 0xF are reserved (R124). -/
def fmtOf : Nat → Option Fmt
  | 0x0 => some .bf16
  | 0x1 => some .e4m3
  | 0x2 => some .e5m2
  | 0x3 => some .mxE4m3
  | 0x4 => some .mxE5m2
  | 0x5 => some .mxE2m3
  | 0x6 => some .mxE3m2
  | 0x7 => some .mxfp4
  | 0x8 => some .int8
  | 0x9 => some .int4
  | 0xA => some .fp16
  | 0xB => some .fp32
  | 0xC => some .int32
  | _ => none

/-- Microscaled formats (R55). -/
def Fmt.mx : Fmt → Bool
  | .mxE4m3 | .mxE5m2 | .mxE2m3 | .mxE3m2 | .mxfp4 => true
  | _ => false

/-- Bits of one element (R51, R52). -/
def Fmt.width : Fmt → Nat
  | .bf16 | .fp16 => 16
  | .e4m3 | .e5m2 | .mxE4m3 | .mxE5m2 | .int8 => 8
  | .mxE2m3 | .mxE3m2 => 6
  | .mxfp4 | .int4 => 4
  | .fp32 | .int32 => 32

/-- Which codes of a floating-point format are not finite (R51). -/
inductive Special where
  /-- all exponents of ones: infinity, NaN -/
  | ieee
  /-- E4M3: only the two all-ones codes, NaN -/
  | onesNaN
  /-- every code is finite -/
  | finite
  deriving DecidableEq, Repr

/-- A floating-point layout: exponent bits, mantissa bits, bias, special codes (R51). -/
structure Layout.Float where
  eb : Nat
  mb : Nat
  bias : Nat
  special : Special
  deriving DecidableEq, Repr

/-- The layout of a format's elements; none for the integers (R51). -/
def Fmt.float : Fmt → Option Layout.Float
  | .bf16 => some ⟨8, 7, 127, .ieee⟩
  | .fp16 => some ⟨5, 10, 15, .ieee⟩
  | .fp32 => some ⟨8, 23, 127, .ieee⟩
  | .e4m3 | .mxE4m3 => some ⟨4, 3, 7, .onesNaN⟩
  | .e5m2 | .mxE5m2 => some ⟨5, 2, 15, .ieee⟩
  | .mxE3m2 => some ⟨3, 2, 3, .finite⟩
  | .mxE2m3 => some ⟨2, 3, 1, .finite⟩
  | .mxfp4 => some ⟨2, 1, 1, .finite⟩
  | .int8 | .int4 | .int32 => none

/-- The layout of FP32 (R51). -/
def fp32Layout : Layout.Float := ⟨8, 23, 127, .ieee⟩

/-! ## Exact values -/

/-- An exact value: NaN, an infinity, or m × 2^e. -/
inductive Num where
  | nan
  | inf (neg : Bool)
  | fin (m e : Int)
  deriving DecidableEq, Repr

/-- The value of a floating-point code (R51, R54). -/
def decodeFloat (f : Layout.Float) (code : Nat) : Num :=
  let neg := bit code (f.eb + f.mb)
  let e := bits code f.mb f.eb
  let t := bits code 0 f.mb
  if f.special = .ieee ∧ e = 2 ^ f.eb - 1 then
    if t = 0 then .inf neg else .nan
  else if f.special = .onesNaN ∧ e = 2 ^ f.eb - 1 ∧ t = 2 ^ f.mb - 1 then .nan
  else
    let m : Int := if e = 0 then t else 2 ^ f.mb + t
    .fin (if neg then -m else m) ((if e = 0 then 1 else (e : Int)) - f.bias - f.mb)

/-- The value of a two's-complement code of `w` bits. -/
def signed (w code : Nat) : Int :=
  if code % 2 ^ w < 2 ^ (w - 1) then (code % 2 ^ w : Nat) else (code % 2 ^ w : Nat) - (2 ^ w : Int)

/-- The value of an element's code in a format (R51). -/
def decodeElem (f : Fmt) (code : Nat) : Num :=
  match f.float with
  | some l => decodeFloat l code
  | none => .fin (signed f.width code) 0

/-- A value times 2^k. -/
def Num.scale (k : Int) : Num → Num
  | .fin m e => .fin m (e + k)
  | x => x

/-- An exact product (R59). Two infinities give an infinity with the sign of the product, which the spec does not state (DESIGN CHOICE, log 185). -/
def Num.mul : Num → Num → Num
  | .nan, _ | _, .nan => .nan
  | .inf a, .inf b => .inf (a != b)
  | .inf a, .fin m _ | .fin m _, .inf a => if m = 0 then .nan else .inf (a != decide (m < 0))
  | .fin m e, .fin n g => .fin (m * n) (e + g)

/-- An exact sum, with the special rules of R66. -/
def Num.add : Num → Num → Num
  | .nan, _ | _, .nan => .nan
  | .inf a, .inf b => if a = b then .inf a else .nan
  | .inf a, .fin _ _ | .fin _ _, .inf a => .inf a
  | .fin m e, .fin n g =>
    let k := min e g
    .fin (m * 2 ^ (e - k).toNat + n * 2 ^ (g - k).toNat) k

/-- The negated value. -/
def Num.neg : Num → Num
  | .nan => .nan
  | .inf a => .inf (!a)
  | .fin m e => .fin (-m) e

/-- Whether a finite value lies below another; false where either is NaN. -/
def Num.lt : Num → Num → Bool
  | .nan, _ | _, .nan => false
  | .inf a, .inf b => a && !b
  | .inf a, .fin _ _ => a
  | .fin _ _, .inf b => !b
  | .fin m e, .fin n g =>
    let k := min e g
    decide (m * 2 ^ (e - k).toNat < n * 2 ^ (g - k).toNat)

/-- Whether two values are equal; false where either is NaN. -/
def Num.eq (x y : Num) : Bool := x ≠ .nan && y ≠ .nan && !x.lt y && !y.lt x

/-- The integer floor of a finite value. -/
def floorOf (m e : Int) : Int := if 0 ≤ e then m * 2 ^ e.toNat else m / 2 ^ (-e).toNat

/-! ## Rounding -/

/-- The rounding modes (R73). -/
inductive Rounding where
  | rne
  | rtz
  | sr
  deriving DecidableEq, Repr

/-- A magnitude m / 2^sh rounded to an integer: RNE with ties to even, RTZ, or SR with the 24-bit number r (R74, R75). -/
def roundShift (mode : Rounding) (r : Nat) (m sh : Nat) : Nat :=
  let t := m / 2 ^ sh
  let rem := m % 2 ^ sh
  match mode with
  | .rne => if 2 * rem > 2 ^ sh ∨ (2 * rem = 2 ^ sh ∧ sh ≠ 0 ∧ t % 2 = 1) then t + 1 else t
  | .rtz => t
  | .sr => if rem * 2 ^ 24 / 2 ^ sh + r ≥ 2 ^ 24 then t + 1 else t

/-- Floor of log₂ of m × 2^e, for m above 0. -/
def floorLog (m : Nat) (e : Int) : Int := (m.log2 : Int) + e

/-- The magnitude code, exponent and mantissa fields together, of m × 2^e rounded once to a layout. It exceeds the largest
finite code exactly where the rounded value overflows. -/
def roundCode (f : Layout.Float) (mode : Rounding) (r : Nat) (m : Nat) (e : Int) : Nat :=
  if m = 0 then 0
  else
    let u := max (floorLog m e) (1 - (f.bias : Int)) - f.mb
    let t := if u ≤ e then m * 2 ^ (e - u).toNat else roundShift mode r m (u - e).toNat
    t + (u + f.mb + f.bias - 1).toNat * 2 ^ f.mb

/-- The code of the largest finite magnitude (R51). -/
def maxCode (f : Layout.Float) : Nat :=
  match f.special with
  | .ieee => (2 ^ f.eb - 1) * 2 ^ f.mb - 1
  | .onesNaN => 2 ^ (f.eb + f.mb) - 2
  | .finite => 2 ^ (f.eb + f.mb) - 1

/-- The canonical NaN (R53). -/
def nanCode (f : Layout.Float) : Nat :=
  match f.special with
  | .ieee => (2 ^ f.eb - 1) * 2 ^ f.mb + 2 ^ (f.mb - 1)
  | .onesNaN => 2 ^ (f.eb + f.mb) - 1
  | .finite => 0

/-- The code of a value in a floating-point format: one rounding (R73 to R75), overflow, infinity and NaN by R78. -/
def encodeFloat (f : Layout.Float) (mode : Rounding) (sat : Bool) (r : Nat) (x : Num) : Nat :=
  let sgn (neg : Bool) (c : Nat) : Nat := if neg then 2 ^ (f.eb + f.mb) + c else c
  match x with
  | .nan => nanCode f
  | .inf neg =>
    if sat then sgn neg (maxCode f)
    else match f.special with
      | .ieee => sgn neg ((2 ^ f.eb - 1) * 2 ^ f.mb)
      | .onesNaN => nanCode f
      | .finite => sgn neg (maxCode f)
  | .fin m e =>
    let c := roundCode f mode r m.natAbs e
    if c ≤ maxCode f then sgn (decide (m < 0)) c
    else if sat ∨ f.special ≠ .ieee ∨ mode = .rtz then sgn (decide (m < 0)) (maxCode f)
    else sgn (decide (m < 0)) ((2 ^ f.eb - 1) * 2 ^ f.mb)

/-- The two's-complement code of a value in an integer format of `w` bits: one rounding, saturating; NaN gives 0 (R78). -/
def encodeInt (w : Nat) (mode : Rounding) (r : Nat) (x : Num) : Nat :=
  let top : Nat := 2 ^ (w - 1)
  match x with
  | .nan => 0
  | .inf neg => if neg then top else top - 1
  | .fin m e =>
    let t := if 0 ≤ e then m.natAbs * 2 ^ e.toNat else roundShift mode r m.natAbs (-e).toNat
    if m < 0 then (2 ^ w - min t top) % 2 ^ w else min t (top - 1)

/-- The code of a value in a non-MX format (R73 to R78). -/
def encodeElem (f : Fmt) (mode : Rounding) (sat : Bool) (r : Nat) (x : Num) : Nat :=
  match f.float with
  | some l => encodeFloat l mode sat r x
  | none => encodeInt f.width mode r x

/-! ## Elements of operands -/

/-- Element `k` of densely packed elements of a format (R52). -/
def elemCode (f : Fmt) (bs : Bytes) (k : Nat) : Nat :=
  let b := k * f.width
  bits (field bs (b / 8) 5) (b % 8) f.width

/-- Element bytes of one MX block (R56). -/
def Fmt.blockBytes (f : Fmt) : Nat := 4 * f.width

/-- Bytes of one MX block group (R56). -/
def Fmt.groupBytes (f : Fmt) : Nat := 16 * f.blockBytes + 16

/-- Bytes of an operand row of `k` elements (R133). -/
def Fmt.rowBytes (f : Fmt) (k : Nat) : Nat :=
  if f.mx then (k + 511) / 512 * f.groupBytes else k * f.width / 8

/-- Element `k` of an operand row, with its block's scale (R55, R56, R133). -/
def rowElem (f : Fmt) (bs : Bytes) (k : Nat) : Num :=
  if f.mx then
    let g := k / 512 * f.groupBytes
    let blk := k / 32 % 16
    let sc := field bs (g + 16 * f.blockBytes + blk) 1
    if sc = 0xFF then .nan
    else (decodeElem f (elemCode f (bs.drop (g + blk * f.blockBytes)) (k % 32))).scale ((sc : Int) - 127)
  else decodeElem f (elemCode f bs k)

/-- The classes of operand formats in R58's table. -/
inductive Klass where
  | bf16 | fp8 | mxfp8 | mxfp6 | mxfp4 | int8 | int4
  deriving DecidableEq, Repr

/-- A format's class in R58's table; FP16, FP32 and INT32 are no tensor operands. -/
def Fmt.klass : Fmt → Option Klass
  | .bf16 => some .bf16
  | .e4m3 | .e5m2 => some .fp8
  | .mxE4m3 | .mxE5m2 => some .mxfp8
  | .mxE2m3 | .mxE3m2 => some .mxfp6
  | .mxfp4 => some .mxfp4
  | .int8 => some .int8
  | .int4 => some .int4
  | .fp16 | .fp32 | .int32 => none

/-- Multiply-accumulates a cycle for an activation and a weight class; none where R58 does not accept the pair. -/
def pairRate : Klass → Klass → Option Nat
  | .int8, .int8 | .int8, .int4 => some 128
  | .int8, _ | .int4, _ | _, .int8 | _, .int4 => none
  | .bf16, _ | _, .bf16 => some 64
  | .mxfp4, .mxfp4 => some 256
  | _, _ => some 128

/-- The rate of a pair of formats (R58). -/
def fmtRate (a w : Fmt) : Option Nat :=
  match a.klass, w.klass with
  | some x, some y => pairRate x y
  | _, _ => none

/-! ## The exact accumulator (R60 to R67) and XP128 (R70, R71) -/

/-- An integer v / 2^k rounded to nearest, ties to even (R64). -/
def shiftRne (v : Int) (k : Nat) : Int :=
  let q := v / 2 ^ k
  let rem := v % 2 ^ k
  if 2 * rem > 2 ^ k ∨ (2 * rem = 2 ^ k ∧ k ≠ 0 ∧ q % 2 = 1) then q + 1 else q

/-- Whether v / 2^k discards a nonzero bit. -/
def shiftLoses (v : Int) (k : Nat) : Bool := v % 2 ^ k ≠ 0

/-- Whether an integer fits the 112-bit significand (R63). -/
def fits112 (v : Int) : Bool := decide (-(2 ^ 111) ≤ v) && decide (v < 2 ^ 111)

/-- The value of an entry (R60, R70). -/
def Entry.value (x : Entry) : Num :=
  if x.e = 0x3FF then (if x.s.toInt = 1 then .inf false else if x.s.toInt = -1 then .inf true else .nan)
  else .fin x.s.toInt ((x.e.toNat : Int) - 511)

/-- The entry that holds an infinity or NaN (R70). -/
def specialEntry (x : Num) (k : Bool) : Entry :=
  match x with
  | .inf neg => { s := BitVec.ofInt 112 (if neg then -1 else 1), e := 0x3FF, k }
  | _ => { s := 0, e := 0x3FF, k }

/-- A finite entry joined by the finite value v × 2^ev with placement exponent `place` (R63 to R65). -/
def joinFinite (x : Entry) (v ev : Int) (place : Nat) (k : Bool) : Entry :=
  let e := max x.e.toNat place
  let xs := shiftRne x.s.toInt (e - x.e.toNat)
  let lostX := shiftLoses x.s.toInt (e - x.e.toNat)
  let sh := (e : Int) - 511 - ev
  let vs := if sh ≤ 0 then v * 2 ^ (-sh).toNat else shiftRne v sh.toNat
  let lostV := decide (0 < sh) && shiftLoses v sh.toNat
  let sum := xs + vs
  let k := x.k || k || lostX || lostV
  if fits112 sum then { s := BitVec.ofInt 112 sum, e := BitVec.ofNat 10 e, k }
  else if e + 16 > 0x3FE then specialEntry (.inf (decide (sum < 0))) true
  else { s := BitVec.ofInt 112 (shiftRne sum 16), e := BitVec.ofNat 10 (e + 16), k := true }

/-- An entry joined by a special value whose own kerf flag is `k` (R66). -/
def joinSpecial (x : Entry) (v : Num) (k : Bool) : Entry :=
  match x.value.add v with
  | .fin _ _ => { x with k := x.k || k }
  | y => specialEntry y (x.k || k)

/-- An entry joined by an exact product (R59, R62 to R66): a zero takes no part, q + 416 places a nonzero one. -/
def joinProduct (x : Entry) (p : Num) : Entry :=
  match p with
  | .fin m e =>
    if m = 0 ∨ x.e = 0x3FF then x
    else joinFinite x m e (floorLog m.natAbs e + 416).toNat false
  | _ => joinSpecial x p false

/-- The XP128 that 16 bytes hold (R70), or none where a reserved field is nonzero or E = 0x3FF has no meaning (R71). -/
def xp128 (n : Nat) : Entry × Bool :=
  let x : Entry := { s := BitVec.ofNat 112 (n / 2 ^ 16), e := BitVec.ofNat 10 (bits n 6 10), k := bit n 5 }
  (x, bits n 0 5 = 0 && (x.e ≠ 0x3FF || x.s.toInt = 0 || x.s.toInt = 1 || x.s.toInt = -1))

/-- The 128 bits of an entry's export (R70, R71). -/
def xp128Bits (x : Entry) : Nat := x.s.toNat * 2 ^ 16 + x.e.toNat * 2 ^ 6 + (if x.k then 32 else 0)

/-- An entry joined by the XP128 value of a number (R71). -/
def joinXp128 (x : Entry) (n : Nat) : Entry :=
  let (y, ok) := xp128 n
  if !ok then joinSpecial x .nan y.k
  else if y.e = 0x3FF then joinSpecial x y.value y.k
  else if x.e = 0x3FF then { x with k := x.k || y.k }
  else joinFinite x y.s.toInt ((y.e.toNat : Int) - 511) y.e.toNat y.k

/-! ## Microscaled drains (R77) -/

/-- The largest finite exponent of an MX element format (R77). -/
def Fmt.emax : Fmt → Int
  | .mxE4m3 => 8
  | .mxE5m2 => 15
  | .mxE3m2 => 4
  | _ => 2

/-- Whether a value is NaN or an infinity. -/
def Num.special : Num → Bool
  | .fin _ _ => false
  | _ => true

/-- Floor of log₂ of the largest magnitude among finite values; none where all are zero. -/
def largestLog : List Num → Option Int
  | [] => none
  | .fin m e :: xs =>
    if m = 0 then largestLog xs
    else match largestLog xs with
      | some l => some (max l (floorLog m.natAbs e))
      | none => some (floorLog m.natAbs e)
  | _ :: xs => largestLog xs

/-- The scale code and the element codes of an MX block, given a random number for each element (R77). -/
def mxBlock (f : Fmt) (mode : Rounding) (xs : List Num) (rs : List Nat) : Nat × List Nat :=
  if xs.any Num.special then (0xFF, xs.map fun _ => 0)
  else
    let x := match largestLog xs with
      | some l => max (-127) (min 127 (l - f.emax))
      | none => -127
    ((x + 127).toNat, (xs.zip rs).map fun (v, r) => encodeElem f mode true r (v.scale (-x)))

/-! ## FP32 (R79): IEEE 754 binary32, RNE, canonical NaN -/

/-- The value of FP32 bits. -/
def fp32 (x : Word) : Num := decodeFloat fp32Layout x.toNat

/-- The sign bit of FP32 bits. -/
def signBit (x : Word) : Bool := x.msb

/-- FP32 bits of an exact result; an exact zero takes the sign `zneg`. -/
def toFp32 (x : Num) (zneg : Bool) : Word :=
  match x with
  | .fin 0 _ => if zneg then 0x8000_0000 else 0
  | _ => BitVec.ofNat 32 (encodeFloat fp32Layout .rne false 0 x)

/-- FP32 sum. -/
def fadd (x y : Word) : Word := toFp32 ((fp32 x).add (fp32 y)) (signBit x && signBit y)
/-- FP32 difference. -/
def fsub (x y : Word) : Word := fadd x (y ^^^ 0x8000_0000)
/-- FP32 product. -/
def fmul (x y : Word) : Word := toFp32 ((fp32 x).mul (fp32 y)) (signBit x != signBit y)
/-- FP32 quotient of a finite value by a finite nonzero one, rounded once; by zero, a NaN. -/
def fdiv (x y : Word) : Word :=
  match fp32 x, fp32 y with
  | .fin m e, .fin n k =>
    if n = 0 then 0x7FC0_0000
    else
      let a := m.natAbs * 2 ^ 80
      let q : Nat := 2 * (a / n.natAbs) + (if a % n.natAbs = 0 then 0 else 1)
      toFp32 (.fin (if signBit x != signBit y then -(q : Int) else q) (e - k - 81)) (signBit x != signBit y)
  | _, _ => 0x7FC0_0000
/-- FP32 x × y + z, rounded once. -/
def ffma (x y z : Word) : Word :=
  toFp32 (((fp32 x).mul (fp32 y)).add (fp32 z)) ((signBit x != signBit y) && signBit z)

/-- Whether FP32 bits are NaN. -/
def isNan (x : Word) : Bool := fp32 x = .nan

/-- The order of FP32 bits in which −0 lies below +0 (R128). -/
def fkey (x : Word) : Int := if x.msb then -(x.toNat % 2 ^ 31 : Nat) - 1 else (x.toNat : Int)

/-- The canonical NaN of FP32 (R53). -/
def fnan : Word := 0x7FC0_0000

/-- FP32 minimum: NaN in either operand gives the canonical NaN, −0 orders below +0 (R128). -/
def fmin (x y : Word) : Word := if isNan x || isNan y then fnan else if fkey y < fkey x then y else x
/-- FP32 maximum (R128). -/
def fmax (x y : Word) : Word := if isNan x || isNan y then fnan else if fkey x < fkey y then y else x

/-- FP32 of an integer, rounded by RNE. -/
def fofInt (i : Int) : Word := toFp32 (.fin i 0) false

/-- INT32 floor of FP32 bits, saturating; NaN gives 0 (R132). -/
def ffloor (x : Word) : Word :=
  match fp32 x with
  | .nan => 0
  | .inf neg => if neg then 0x8000_0000 else 0x7FFF_FFFF
  | .fin m e => BitVec.ofInt 32 (max (-(2 ^ 31)) (min (2 ^ 31 - 1) (floorOf m e)))

/-- x − floor(x), formed exactly and rounded once; infinity or NaN gives canonical NaN (R132). -/
def ffrac (x : Word) : Word :=
  match fp32 x with
  | .fin m e => toFp32 ((Num.fin m e).add (.fin (-(floorOf m e)) 0)) false
  | _ => fnan

/-- x × 2^k (R132); beyond ±1,000 every x overflows or vanishes alike. -/
def fldexp (x : Word) (k : Int) : Word := toFp32 ((fp32 x).scale (max (-1000) (min 1000 k))) (signBit x)

/-- Word `k` of entry `e` of a nonlinear table (R132). -/
def tableWord (tab : Bytes) (e k : Nat) : Word := BitVec.ofNat 32 (field tab (16 * e + 4 * k) 4)

/-- The scaled input t of VNL: two roundings (R132). -/
def tableInput (tab : Bytes) (x : Word) : Word := fmul (fsub x (tableWord tab 0 0)) (tableWord tab 0 1)

/-- The segment 0 to 62 that VNL evaluates; a NaN t takes segment 0 (log 31). -/
def segment (tab : Bytes) (x : Word) : Nat :=
  match fp32 x with
  | .nan => 0
  | .inf neg => if neg then 0 else 62
  | .fin _ _ =>
    match fp32 (tableInput tab x) with
    | .nan => 0
    | .inf neg => if neg then 0 else 62
    | .fin m e => (max 0 (min 62 (floorOf m e))).toNat

/-- The table entries that VNL reads for a lane: the header for a finite input, and its segment's for any but NaN. -/
def entriesRead (tab : Bytes) (x : Word) : List Nat :=
  match fp32 x with
  | .nan => []
  | .inf _ => [segment tab x + 1]
  | .fin _ _ => [0, segment tab x + 1]

/-- One lane of VNL over the 1,024 bytes of a table (R132). -/
def nonlinear (tab : Bytes) (x : Word) : Word :=
  let s := segment tab x
  let c (k : Nat) : Word := tableWord tab (s + 1) k
  match fp32 x with
  | .nan => fnan
  | .inf _ => if isNan (c 0) then fnan else c 0
  | .fin _ _ =>
    let f := fsub (tableInput tab x) (fofInt s)
    ffma f (ffma f (c 2) (c 1)) (c 0)

/-- A sum of two codes of a Truss format (R80): floats round once by RNE, INT32 wraps, XP128 joins. An exact sum of zero is −0 where both summands
are −0 and +0 otherwise, as IEEE 754 has it under RNE (PRESUMED, log 177). `fmt` is coded as R235 codes it: 1 FP32, 2 BF16, 3 FP16, 4 INT32,
5 XP128. -/
def trussSum (fmt a b : Nat) : Nat :=
  let fl (l : Layout.Float) : Nat :=
    let z := bit a (l.eb + l.mb) && bit b (l.eb + l.mb)
    match (decodeFloat l a).add (decodeFloat l b) with
    | .fin 0 _ => if z then 2 ^ (l.eb + l.mb) else 0
    | x => encodeFloat l .rne false 0 x
  match fmt with
  | 5 =>
    let (x, ok) := xp128 a
    xp128Bits (joinXp128 (if ok then x else specialEntry .nan x.k) b)
  | 1 => fl fp32Layout
  | 2 => fl ⟨8, 7, 127, .ieee⟩
  | 3 => fl ⟨5, 10, 15, .ieee⟩
  | _ => (a + b) % 2 ^ 32

end Sys2Proof.Machine
end

