-- ==== Sys2Proof/Machine/Operands.lean ====
section
/-! DEFINITION. Core instruction words: their layout (R106), groups and functions (R107, R125 to R144), which words are
instructions (R107), and the operand forms. -/

namespace Sys2Proof.Machine

/-- The instructions of the reference (R125 to R144). -/
inductive Op where
  | add | sub | and | or | xor | shl | shr | sar | mul | mulh | setp | plog | li | sel | min | max
  | ldw | ldh | ldb | stw | sth | stb
  | br | bri | loop | brk
  | vadd | vsub | vmul | vfma | vmin | vmax | vand | vor | vxor | vshl | vshr | vcmp | vsel | vcvt | vred | vperm
  | vld | vst | vldx | vstx | vins | vext | vbcst
  | vnl | vflr | vfrac | vldexp
  | tmma | tmmac | tclr | tjoin
  | drain | exportTile
  | swait | srel
  | movd
  | barb | bard | waitf | tsync | mwait
  | tcoll | lsend
  | nop | mfs | halt | trap
  deriving DecidableEq, Repr

/-- The instruction of a group and a function; groups 0xD to 0xF and undefined functions have none (R107). -/
def opOf : Nat → Nat → Option Op
  | 0x0, 0x0 => some .add | 0x0, 0x1 => some .sub | 0x0, 0x2 => some .and | 0x0, 0x3 => some .or
  | 0x0, 0x4 => some .xor | 0x0, 0x5 => some .shl | 0x0, 0x6 => some .shr | 0x0, 0x7 => some .sar
  | 0x0, 0x8 => some .mul | 0x0, 0x9 => some .mulh | 0x0, 0xA => some .setp | 0x0, 0xB => some .plog
  | 0x0, 0xC => some .li | 0x0, 0xD => some .sel | 0x0, 0xE => some .min | 0x0, 0xF => some .max
  | 0x1, 0x0 => some .ldw | 0x1, 0x1 => some .ldh | 0x1, 0x2 => some .ldb
  | 0x1, 0x3 => some .stw | 0x1, 0x4 => some .sth | 0x1, 0x5 => some .stb
  | 0x2, 0x0 => some .br | 0x2, 0x1 => some .bri | 0x2, 0x2 => some .loop | 0x2, 0x3 => some .brk
  | 0x3, 0x0 => some .vadd | 0x3, 0x1 => some .vsub | 0x3, 0x2 => some .vmul | 0x3, 0x3 => some .vfma
  | 0x3, 0x4 => some .vmin | 0x3, 0x5 => some .vmax | 0x3, 0x6 => some .vand | 0x3, 0x7 => some .vor
  | 0x3, 0x8 => some .vxor | 0x3, 0x9 => some .vshl | 0x3, 0xA => some .vshr | 0x3, 0xB => some .vcmp
  | 0x3, 0xC => some .vsel | 0x3, 0xD => some .vcvt | 0x3, 0xE => some .vred | 0x3, 0xF => some .vperm
  | 0x4, 0x0 => some .vld | 0x4, 0x1 => some .vst | 0x4, 0x2 => some .vldx | 0x4, 0x3 => some .vstx
  | 0x4, 0x4 => some .vins | 0x4, 0x5 => some .vext | 0x4, 0x6 => some .vbcst
  | 0x5, 0x0 => some .vnl | 0x5, 0x1 => some .vflr | 0x5, 0x2 => some .vfrac | 0x5, 0x3 => some .vldexp
  | 0x6, 0x0 => some .tmma | 0x6, 0x1 => some .tmmac | 0x6, 0x2 => some .tclr | 0x6, 0x3 => some .tjoin
  | 0x7, 0x0 => some .drain | 0x7, 0x1 => some .exportTile
  | 0x8, 0x0 => some .swait | 0x8, 0x1 => some .srel
  | 0x9, 0x0 => some .movd
  | 0xA, 0x0 => some .barb | 0xA, 0x1 => some .bard | 0xA, 0x2 => some .waitf | 0xA, 0x3 => some .tsync
  | 0xA, 0x4 => some .mwait
  | 0xB, 0x0 => some .tcoll | 0xB, 0x1 => some .lsend
  | 0xC, 0x0 => some .nop | 0xC, 0x1 => some .mfs | 0xC, 0x2 => some .halt | 0xC, 0x3 => some .trap
  | _, _ => none

/-- The group and the function of an instruction (R107, R125 to R144). -/
def Op.code : Op → Nat × Nat
  | .add => (0, 0) | .sub => (0, 1) | .and => (0, 2) | .or => (0, 3) | .xor => (0, 4) | .shl => (0, 5)
  | .shr => (0, 6) | .sar => (0, 7) | .mul => (0, 8) | .mulh => (0, 9) | .setp => (0, 10) | .plog => (0, 11)
  | .li => (0, 12) | .sel => (0, 13) | .min => (0, 14) | .max => (0, 15)
  | .ldw => (1, 0) | .ldh => (1, 1) | .ldb => (1, 2) | .stw => (1, 3) | .sth => (1, 4) | .stb => (1, 5)
  | .br => (2, 0) | .bri => (2, 1) | .loop => (2, 2) | .brk => (2, 3)
  | .vadd => (3, 0) | .vsub => (3, 1) | .vmul => (3, 2) | .vfma => (3, 3) | .vmin => (3, 4) | .vmax => (3, 5)
  | .vand => (3, 6) | .vor => (3, 7) | .vxor => (3, 8) | .vshl => (3, 9) | .vshr => (3, 10) | .vcmp => (3, 11)
  | .vsel => (3, 12) | .vcvt => (3, 13) | .vred => (3, 14) | .vperm => (3, 15)
  | .vld => (4, 0) | .vst => (4, 1) | .vldx => (4, 2) | .vstx => (4, 3) | .vins => (4, 4) | .vext => (4, 5)
  | .vbcst => (4, 6)
  | .vnl => (5, 0) | .vflr => (5, 1) | .vfrac => (5, 2) | .vldexp => (5, 3)
  | .tmma => (6, 0) | .tmmac => (6, 1) | .tclr => (6, 2) | .tjoin => (6, 3)
  | .drain => (7, 0) | .exportTile => (7, 1)
  | .swait => (8, 0) | .srel => (8, 1)
  | .movd => (9, 0)
  | .barb => (10, 0) | .bard => (10, 1) | .waitf => (10, 2) | .tsync => (10, 3) | .mwait => (10, 4)
  | .tcoll => (11, 0) | .lsend => (11, 1)
  | .nop => (12, 0) | .mfs => (12, 1) | .halt => (12, 2) | .trap => (12, 3)

/-- The 64-bit word of an instruction with its fields (R106). -/
def encodeWord (o : Op) (f : Fields) : Dword :=
  BitVec.ofNat 4 o.code.1 ++ BitVec.ofNat 4 o.code.2 ++ BitVec.ofBool f.pn ++ f.pr ++ f.d ++ f.a ++ f.b ++ f.m ++ f.imm

/-- The operand fields of a word (R106). -/
def wordFields (w : Dword) : Fields where
  pn := w.getLsbD 55
  pr := w.extractLsb' 52 3
  d := w.extractLsb' 47 5
  a := w.extractLsb' 42 5
  b := w.extractLsb' 37 5
  m := w.extractLsb' 32 5
  imm := w.extractLsb' 0 32

/-- Whether the bits of `x` from `k` up are zero: the reserved upper part of a field. -/
def below {w : Nat} (k : Nat) (x : BitVec w) : Bool := decide (x.toNat < 2 ^ k)

/-- Scalar second operand: m[0] = 0 takes gb and reserves imm, m[0] = 1 takes imm and reserves b (R125). -/
def op2Ok (f : Fields) : Bool := if f.m.getLsbD 0 then f.b == 0 else f.imm == 0

/-- Vector second operand: m[1] = 0 takes vb and reserves imm, m[1] = 1 takes imm and reserves b (R128). -/
def vop2Ok (f : Fields) : Bool := if f.m.getLsbD 1 then f.b == 0 else below 4 f.b && f.imm == 0

/-- Field d names v0 to v15, and a does (R106). -/
def vda (f : Fields) : Bool := below 4 f.d && below 4 f.a

/-- The formats VCVT takes (R124). -/
def cvtOk (code : Nat) : Bool :=
  match fmtOf code with
  | some f => !f.mx && f != .int4
  | none => false

/-- The formats DRAIN gives (R124). -/
def drainOk (code : Nat) : Bool :=
  match fmtOf code with
  | some f => f != .int4
  | none => false

/-- Whether a format code is microscaled. -/
def mxCode (code : Nat) : Bool :=
  match fmtOf code with
  | some f => f.mx
  | none => false

/-- The pair of formats that TMMA and TMMAC name, where R58 accepts it (R133). -/
def tensorPair (imm : Word) : Option (Fmt × Fmt) :=
  match fmtOf (bits imm.toNat 0 4), fmtOf (bits imm.toNat 4 4) with
  | some a, some w => if (fmtRate a w).isSome then some (a, w) else none
  | _, _ => none

/-- The special registers' indices (R86). -/
def specialIndex (i : Nat) : Bool :=
  [0x00, 0x01, 0x02, 0x03, 0x04, 0x05, 0x06, 0x08, 0x09, 0x0C, 0x0D, 0x0E, 0x10, 0x11, 0x12].contains i

/-- Whether an instruction's fields are legal: reserved fields and bits zero, register numbers in their class, no reserved
code (R106, R107, R124 to R144). It is checked whatever the guard (R100). -/
def fieldsOk (o : Op) (f : Fields) : Bool :=
  let m := f.m.toNat
  let imm := f.imm.toNat
  match o with
  | .add | .sub | .and | .or | .xor | .shl | .shr | .sar | .mul => m < 2 && op2Ok f
  | .mulh | .min | .max => m < 4 && op2Ok f
  | .setp => below 3 f.d && m < 12 && op2Ok f
  | .plog => below 3 f.d && below 3 f.a && below 3 f.b && m < 4 && imm == 0
  | .li => f.a == 0 && f.b == 0 && m == 0
  | .sel => m == 0 && imm < 8
  | .ldw => f.b == 0 && m == 0
  | .ldh | .ldb => f.b == 0 && m < 2
  | .stw | .sth | .stb => f.d == 0 && m == 0
  | .br => f.d == 0 && f.a == 0 && f.b == 0 && m == 0 && imm < 2048
  | .bri => f.d == 0 && f.b == 0 && m == 0 && imm == 0
  | .loop => f.d == 0 && f.b == 0 && bits imm 11 5 == 0 &&
      (if m == 0 then imm < 65536 else m == 1 && f.a == 0)
  | .brk => f.d == 0 && f.a == 0 && f.b == 0 && m == 0 && imm == 0
  | .vadd | .vsub | .vmul => vda f && vop2Ok f && m < 4
  | .vfma | .vand | .vor | .vxor | .vshl => vda f && vop2Ok f && (m == 0 || m == 2)
  | .vmin | .vmax => vda f && vop2Ok f && m < 8 && (m < 4 || bit m 0)
  | .vshr => vda f && vop2Ok f && m < 8 && !bit m 0
  | .vcmp => below 4 f.a && vop2Ok f && (m < 16 || (m < 24 && bit m 0))
  | .vsel => vda f && below 4 f.b && m == 0 && imm < 32
  | .vcvt => vda f && m < 8 && bits m 0 2 != 3 && imm < 256 && cvtOk (bits imm 0 4) && cvtOk (bits imm 4 4) &&
      (f.b == 0 || bits m 0 2 == 2)
  | .vred => vda f && m < 6 && imm == 0
  | .vperm => vda f && below 4 f.b && m == 0 && imm == 0
  | .vld => below 4 f.d && m < 8 && bits m 0 2 != 3 && imm < 2 ^ 31
  | .vst => below 4 f.d && m < 3 && imm < 2 ^ 31
  | .vldx => below 4 f.d && below 4 f.b && m < 8 && bits m 0 2 != 3 && imm < 2 ^ 17
  | .vstx => below 4 f.d && below 4 f.b && m < 3 && imm < 2 ^ 17
  | .vins => below 4 f.d && f.b == 0 && m == 0 && imm < 32
  | .vext => below 4 f.a && f.b == 0 && m == 0 && imm < 32
  | .vbcst => below 4 f.d && f.b == 0 && m == 0 && imm == 0
  | .vnl => vda f && f.b == 0 && m == 0 && imm < 4
  | .vflr | .vfrac => vda f && f.b == 0 && m == 0 && imm == 0
  | .vldexp => vda f && below 4 f.b && m == 0 && imm == 0
  | .tmma | .tmmac => below 2 f.d && m == 0 && imm < 2 ^ 30 && (tensorPair f.imm).isSome
  | .tclr => below 2 f.d && f.a == 0 && f.b == 0 && m == 0 && imm == 0
  | .tjoin => below 2 f.d && f.b == 0 && m == 0 && imm < 4096
  | .drain => below 2 f.d && m < 16 && bits m 0 2 != 3 && imm < 2 ^ 20 && drainOk (bits imm 0 4) &&
      (f.b == 0 || bits m 0 2 == 2) &&
      (if mxCode (bits imm 0 4) then !f.d.getLsbD 0 && !bit m 2 else bits imm 4 4 == 0)
  | .exportTile => below 2 f.d && f.b == 0 && (m == 0 || m == 8) && bits imm 0 8 == 0 && imm < 2 ^ 20
  | .swait => f.a == 0 && (if m == 0 then f.b == 0 && imm < 2 else m == 1 && imm == 0)
  | .srel => f.d == 0 && f.a == 0 && (if m == 0 then f.b == 0 && imm < 2 else m == 1 && imm == 0)
  | .movd | .tcoll => f.d == 0 && f.b == 0 && m == 0 && imm == 0
  | .barb | .bard => f.d == 0 && f.a == 0 && f.b == 0 && m == 0 && imm < 256
  | .waitf => f.d == 0 && m < 3 && imm < 2 ^ 17
  | .tsync => f.d == 0 && f.a == 0 && f.b == 0 && m == 0 && imm ≤ 4
  | .mwait => f.d == 0 && f.a == 0 && f.b == 0 && m == 0 && imm ≤ 8
  | .lsend => m < 4 && 1 ≤ imm && imm ≤ 3072
  | .nop | .halt => f.d == 0 && f.a == 0 && f.b == 0 && m == 0 && imm == 0
  | .mfs => f.a == 0 && f.b == 0 && m == 0 && specialIndex imm
  | .trap => f.d == 0 && f.a == 0 && f.b == 0 && m == 0 && imm < 65536

/-- The instruction that a word is, or none: ILLEGAL_INSTRUCTION (R107). -/
def decodeWord (w : Dword) : Option (Op × Fields) :=
  match opOf (w.extractLsb' 60 4).toNat (w.extractLsb' 56 4).toNat with
  | some o => if fieldsOk o (wordFields w) then some (o, wordFields w) else none
  | none => none

end Sys2Proof.Machine
end

