-- ==== Sys2Proof/Machine/Ops.lean ====
section
/-! DEFINITION. The operations that every meaning is built from: what the state holds at an index and the state with it
changed, draws of free values, the places of cores and bays, and the idle cycle. -/

namespace Sys2Proof.Machine

/-! ## What is held at an index -/

/-- Core `c` (R46: 128 × bay + 16 × row + column). -/
def State.core (s : State) (c : Nat) : Core := look {} s.cores c
/-- The state with core `c` replaced. -/
def State.setCore (s : State) (c : Nat) (k : Core) : State := { s with cores := put {} s.cores c k }
/-- Core row `r` of a bay, by 8 × bay + row. -/
def State.row (s : State) (r : Nat) : Row := look {} s.rows r
/-- The state with a core row replaced. -/
def State.setRow (s : State) (r : Nat) (x : Row) : State := { s with rows := put {} s.rows r x }
/-- Bay `b`, by 8y + x (R46). -/
def State.bay (s : State) (b : Nat) : Bay := look {} s.bays b
/-- The state with a bay replaced. -/
def State.setBay (s : State) (b : Nat) (x : Bay) : State := { s with bays := put {} s.bays b x }
/-- Partition `p`. -/
def State.part (s : State) (p : Nat) : Part := look {} s.parts p
/-- The state with a partition replaced. -/
def State.setPart (s : State) (p : Nat) (x : Part) : State := { s with parts := put {} s.parts p x }
/-- Sequence context `x`. -/
def State.ctx (s : State) (x : Nat) : Ctx := look {} s.ctxs x
/-- The state with a context replaced. -/
def State.setCtx (s : State) (x : Nat) (v : Ctx) : State := { s with ctxs := put {} s.ctxs x v }
/-- Queue `q`. -/
def State.queue (s : State) (q : Nat) : Queue := look {} s.queues q
/-- The state with a queue replaced. -/
def State.setQueue (s : State) (q : Nat) (v : Queue) : State := { s with queues := put {} s.queues q v }
/-- Host port `n`. -/
def State.port (s : State) (n : Nat) : Port := look {} s.ports n
/-- The state with a host port replaced. -/
def State.setPort (s : State) (n : Nat) (v : Port) : State := { s with ports := put {} s.ports n v }
/-- Memory controller `n`. -/
def State.mc (s : State) (n : Nat) : Mc := look {} s.mcs n
/-- The state with a memory controller replaced. -/
def State.setMc (s : State) (n : Nat) (v : Mc) : State := { s with mcs := put {} s.mcs n v }
/-- Sampler unit `u`. -/
def State.su (s : State) (u : Nat) : Su := look {} s.sus u
/-- The state with a sampler unit replaced. -/
def State.setSu (s : State) (u : Nat) (v : Su) : State := { s with sus := put {} s.sus u v }
/-- Collective context `i`. -/
def State.coll (s : State) (i : Nat) : Option Coll := look none s.colls i
/-- The state with a collective context replaced. -/
def State.setColl (s : State) (i : Nat) (v : Option Coll) : State := { s with colls := put none s.colls i v }
/-- Link `l`. -/
def State.link (s : State) (l : Nat) : Link := look {} s.links l
/-- The state with a link replaced. -/
def State.setLink (s : State) (l : Nat) (v : Link) : State := { s with links := put {} s.links l v }

/-! ## Folding over numbers -/

/-- Apply `f 0`, `f 1`, …, `f (n − 1)` in turn. -/
def repeatFrom {α : Type} (f : Nat → α → α) : Nat → Nat → α → α
  | 0, _, a => a
  | n + 1, i, a => repeatFrom f n (i + 1) (f i a)

/-- Apply `f 0`, `f 1`, …, `f (n − 1)` in turn. -/
def upTo {α : Type} (n : Nat) (f : Nat → α → α) (a : α) : α := repeatFrom f n 0 a

/-! ## Free values and outputs -/

/-- The next free value, and the state in which it is drawn (log 2). -/
def State.draw (s : State) : Nat × State := (Config.freeValue s.free, { s with free := s.free + 1 })

/-- The next `n` free bytes, and the state in which they are drawn (log 2). -/
def State.drawBytes (s : State) (n : Nat) : Bytes × State :=
  ((List.range n).map fun i => BitVec.ofNat 8 (Config.freeValue (s.free + i)), { s with free := s.free + n })

/-- The state in which the module has sent `m` (log 3). -/
def State.send (s : State) (m : Sent) : State := { s with sent := s.sent ++ [m] }

/-! ## Places -/

/-- The bay of a core (R46). -/
def bayOf (c : Nat) : Nat := c / 128
/-- The core row of a core. -/
def rowOf (c : Nat) : Nat := c / 16
/-- The bay column x of a bay (R4). -/
def bayX (b : Nat) : Nat := b % 8
/-- The bay row y of a bay (R4). -/
def bayY (b : Nat) : Nat := b / 8
/-- The cores of a bay. -/
def coresOf (b : Nat) : List Nat := (List.range 128).map (128 * b + ·)
/-- The cores of a core row. -/
def coresOfRow (r : Nat) : List Nat := (List.range 16).map (16 * r + ·)

/-- The bay at place x of row y (R4). -/
def bayAt (x y : Nat) : Nat := 8 * y + x
/-- The bay to which a memory controller attaches (R40). -/
def mcBay (n : Nat) : Nat :=
  if n < 6 then bayAt (n + 1) 0 else if n < 12 then bayAt 7 (n - 5) else if n < 18 then bayAt (18 - n) 7 else bayAt 0 (24 - n)
/-- The bay to which the Tenon station of a link attaches: X, Y or Z (R40). -/
def linkBay (l : Nat) : Nat := if l < 2 then bayAt 7 0 else if l < 4 then bayAt 7 7 else bayAt 0 7
/-- The bay to which a sampler unit attaches (R40). -/
def suBay (u : Nat) : Nat :=
  [bayAt 2 0, bayAt 5 0, bayAt 7 2, bayAt 7 5, bayAt 5 7, bayAt 2 7, bayAt 0 5, bayAt 0 2].getD u 0
/-- The bay to which the host station and the management complex attach (R40). -/
def hostBay : Nat := bayAt 0 0
/-- The hops between two bays' routers (R36, R37). -/
def hops (a b : Nat) : Nat := (bayX a - bayX b) + (bayX b - bayX a) + ((bayY a - bayY b) + (bayY b - bayY a))

/-- What the block does when no command waits: a cycle of TICK passes (DESIGN CHOICE, log 8): rack time, which counts 10 ns
a TICK cycle (R473), advances when the module runs. -/
def idle (s : State) : State :=
  if s.pins.inReset then s else { s with clock := { s.clock with time := s.clock.time + 10, up := s.clock.up + 10 } }

end Sys2Proof.Machine
end

