-- ==== Sys2Proof/Machine/Objects.lean ====
section
/-! DEFINITION. The objects of the dictionary and the registers of the mortise window: their tables as the spec gives them,
and what the state holds in them (R11, R302 to R306, R321, R327, R344, R346, R350, R380, R392, R406, R433, R438, R458, R468,
R480, R204, R230, R259, R295, R369). An object that holds its Default has no entry in `State.objs`, and a register none in
`State.regs`. -/

namespace Sys2Proof.Machine

/-! ## Objects -/

/-- The types of objects (R322). -/
inductive ObjType where
  | u8 | u16 | u32 | u64 | f32 | str | blob
  deriving DecidableEq, Repr

/-- Who may access an object (R323). -/
inductive Access where
  | ro | rws | wo
  deriving DecidableEq, Repr

/-- A row of an object table: its index and range of subs, type, access, whether it is kept across a management complex, a
warm and a cold reset (R11), its Default, and the range of values that may be written. -/
structure ObjRow where
  index : Nat
  lo    : Nat
  hi    : Nat
  type  : ObjType
  access : Access
  mgmt  : Bool
  warm  : Bool
  cold  : Bool
  init  : Val
  least : Nat
  most  : Nat
  deriving DecidableEq, Repr

/-- MEM_GRADE_FUSED, MEM_GRADE_SET (R204; subs 0x01 to 0x03). -/
abbrev Obj.memGradeSet : Nat := 0x5000
/-- MEM_GRADE_RUN (R204). -/
abbrev Obj.memGradeRun : Nat := 0x5000
/-- MEM_EXT_TOTAL (R204). -/
abbrev Obj.memExtTotal : Nat := 0x5001
/-- MEM_EXT_FREE (R204). -/
abbrev Obj.memExtFree : Nat := 0x5002
/-- MEM_EXT_SCRUB (R204). -/
abbrev Obj.memExtScrub : Nat := 0x5003
/-- MC_STREAM_SHARE (R204). -/
abbrev Obj.mcStreamShare : Nat := 0x5010
/-- MEM_PATROL_HOURS (R204). -/
abbrev Obj.memPatrolHours : Nat := 0x5011
/-- PART_QUOTA (R204; subs 0x01 to 0x08). -/
abbrev Obj.partQuota : Nat := 0x5100
/-- PART_POOL (R204; subs 0x01 to 0x08). -/
abbrev Obj.partPool : Nat := 0x5101
/-- PART_WINDOWS (R204; subs 0x01 to 0x08). -/
abbrev Obj.partWindows : Nat := 0x5102
/-- PART_WINPAGES (R204; subs 0x01 to 0x08). -/
abbrev Obj.partWinpages : Nat := 0x5103
/-- PART_PLAN (R204; subs 0x01 to 0x08). -/
abbrev Obj.partPlan : Nat := 0x5104
/-- PART_FRAMES_FREE (R204; subs 0x01 to 0x08). -/
abbrev Obj.partFramesFree : Nat := 0x5105
/-- PART_FRAMES_USED (R204; subs 0x01 to 0x08). -/
abbrev Obj.partFramesUsed : Nat := 0x5106
/-- JOIST_HITS (R204). -/
abbrev Obj.joistHits : Nat := 0x5200
/-- JOIST_REFILLS (R204). -/
abbrev Obj.joistRefills : Nat := 0x5201
/-- MC_CE_COUNT (R204; subs 0x01 to 0x18). -/
abbrev Obj.mcCeCount : Nat := 0x5300
/-- MC_UE_COUNT (R204; subs 0x01 to 0x18). -/
abbrev Obj.mcUeCount : Nat := 0x5301
/-- MEM_REPAIR_PENDING (R204). -/
abbrev Obj.memRepairPending : Nat := 0x5302
/-- SAMP_SHARE (R230; subs 0x01 to 0x08). -/
abbrev Obj.sampShare : Nat := 0x3400
/-- SAMP_ROWS (R230; subs 0x01 to 0x08). -/
abbrev Obj.sampRows : Nat := 0x3401
/-- SAMP_SPILLS (R230; subs 0x01 to 0x08). -/
abbrev Obj.sampSpills : Nat := 0x3402
/-- SAMP_NOTOKEN (R230; subs 0x01 to 0x08). -/
abbrev Obj.sampNotoken : Nat := 0x3403
/-- GRAM_LOADED (R230; subs 0x01 to 0x08). -/
abbrev Obj.gramLoaded : Nat := 0x3404
/-- TRUSS_CTX (R259; subs 0x01 to 0x08). -/
abbrev Obj.trussCtx : Nat := 0x4800
/-- TRUSS_CHUNK_TO (R259). -/
abbrev Obj.trussChunkTo : Nat := 0x4801
/-- TRUSS_POSTED (R259; subs 0x01 to 0x08). -/
abbrev Obj.trussPosted : Nat := 0x4802
/-- TRUSS_RESENT (R259; subs 0x01 to 0x08). -/
abbrev Obj.trussResent : Nat := 0x4803
/-- TRUSS_ABORTS (R259; subs 0x01 to 0x08). -/
abbrev Obj.trussAborts : Nat := 0x4804
/-- TRUSS_STALE (R259). -/
abbrev Obj.trussStale : Nat := 0x4805
/-- TRUSS_ACTIVE (R259; subs 0x01 to 0x08). -/
abbrev Obj.trussActive : Nat := 0x4806
/-- LINK_STATE (R295; subs 0x01 to 0x06). -/
abbrev Obj.linkState : Nat := 0x4000
/-- LINK_RATE (R295; subs 0x01 to 0x06). -/
abbrev Obj.linkRate : Nat := 0x4001
/-- LINK_RATE_ALLOW (R295; subs 0x01 to 0x06). -/
abbrev Obj.linkRateAllow : Nat := 0x4002
/-- LINK_BER (R295; subs 0x01 to 0x06). -/
abbrev Obj.linkBer : Nat := 0x4003
/-- LINK_CW_CORR (R295; subs 0x01 to 0x06). -/
abbrev Obj.linkCwCorr : Nat := 0x4004
/-- LINK_CW_UNCORR (R295; subs 0x01 to 0x06). -/
abbrev Obj.linkCwUncorr : Nat := 0x4005
/-- LINK_PKT_DISCARD (R295; subs 0x01 to 0x06). -/
abbrev Obj.linkPktDiscard : Nat := 0x4006
/-- LINK_FAR_ID (R295; subs 0x01 to 0x06). -/
abbrev Obj.linkFarId : Nat := 0x4007
/-- LINK_PLUMB (R295; subs 0x01 to 0x06). -/
abbrev Obj.linkPlumb : Nat := 0x4008
/-- LINK_PLUMB_PEER (R295; subs 0x01 to 0x06). -/
abbrev Obj.linkPlumbPeer : Nat := 0x4009
/-- ROUTE_COORD (R295). -/
abbrev Obj.routeCoord : Nat := 0x4010
/-- ROUTE_RACK (R295). -/
abbrev Obj.routeRack : Nat := 0x4011
/-- ROUTE_PLAN (R295). -/
abbrev Obj.routePlan : Nat := 0x4012
/-- ROUTE_POPULATED (R295). -/
abbrev Obj.routePopulated : Nat := 0x4013
/-- ROUTE_RACKAXIS (R295). -/
abbrev Obj.routeRackaxis : Nat := 0x4014
/-- JOB_ID (R295; subs 0x01 to 0x08). -/
abbrev Obj.jobId : Nat := 0x4020
/-- JOB_EPOCH (R295; subs 0x01 to 0x08). -/
abbrev Obj.jobEpoch : Nat := 0x4021
/-- JOB_MAP (R295; subs 0x01 to 0x08). -/
abbrev Obj.jobMap : Nat := 0x4022
/-- LINK_REQ_TO (R295). -/
abbrev Obj.linkReqTo : Nat := 0x4030
/-- LINK_EPOCH_DROP (R295). -/
abbrev Obj.linkEpochDrop : Nat := 0x4031
/-- LINK_FWD_DISCARD (R295). -/
abbrev Obj.linkFwdDiscard : Nat := 0x4032
/-- LINK_STALE_REPLY (R295). -/
abbrev Obj.linkStaleReply : Nat := 0x4033
/-- LINK_FORWARDED (R295). -/
abbrev Obj.linkForwarded : Nat := 0x4034
/-- HOST_HB_LIMIT (R303; subs 0x01 to 0x04). -/
abbrev Obj.hostHbLimit : Nat := 0x3000
/-- HOST_HOLD (R303; subs 0x01 to 0x04). -/
abbrev Obj.hostHold : Nat := 0x3001
/-- HOST_QMAX (R303; subs 0x01 to 0x04). -/
abbrev Obj.hostQmax : Nat := 0x3002
/-- HOST_STATE (R303; subs 0x01 to 0x04). -/
abbrev Obj.hostState : Nat := 0x3003
/-- HOST_LOSSES (R303; subs 0x01 to 0x04). -/
abbrev Obj.hostLosses : Nat := 0x3004
/-- HOST_CPL_DROP (R303; subs 0x01 to 0x04). -/
abbrev Obj.hostCplDrop : Nat := 0x3005
/-- PART_ROWS (R303; subs 0x01 to 0x08). -/
abbrev Obj.partRows : Nat := 0x3100
/-- PART_OWNER (R303; subs 0x01 to 0x08). -/
abbrev Obj.partOwner : Nat := 0x3101
/-- PART_CTX_BASE (R303; subs 0x01 to 0x08). -/
abbrev Obj.partCtxBase : Nat := 0x3102
/-- PART_CTX_COUNT (R303; subs 0x01 to 0x08). -/
abbrev Obj.partCtxCount : Nat := 0x3103
/-- PART_STATE (R303; subs 0x01 to 0x08). -/
abbrev Obj.partState : Nat := 0x3104
/-- PART_SHORE_WHY (R303; subs 0x01 to 0x08). -/
abbrev Obj.partShoreWhy : Nat := 0x3105
/-- DEV_NAME (R327). -/
abbrev Obj.devName : Nat := 0x1000
/-- DEV_PART (R327). -/
abbrev Obj.devPart : Nat := 0x1001
/-- DEV_VARIANT (R327). -/
abbrev Obj.devVariant : Nat := 0x1002
/-- DEV_SERIAL (R327). -/
abbrev Obj.devSerial : Nat := 0x1003
/-- DEV_STEPPING (R327). -/
abbrev Obj.devStepping : Nat := 0x1004
/-- DEV_STRAPS (R327). -/
abbrev Obj.devStraps : Nat := 0x1005
/-- DEV_UPTIME (R327). -/
abbrev Obj.devUptime : Nat := 0x1006
/-- COM_VERSIONS (R327). -/
abbrev Obj.comVersions : Nat := 0x1010
/-- COM_UDP_PORT (R327). -/
abbrev Obj.comUdpPort : Nat := 0x1011
/-- COM_V1_ENABLE (R327). -/
abbrev Obj.comV1Enable : Nat := 0x1012
/-- COM_ADDR (R327). -/
abbrev Obj.comAddr : Nat := 0x1013
/-- COM_RX (R327). -/
abbrev Obj.comRx : Nat := 0x1014
/-- COM_ABORTS (R327). -/
abbrev Obj.comAborts : Nat := 0x1015
/-- COM_DROPPED (R327). -/
abbrev Obj.comDropped : Nat := 0x1016
/-- SESS_MAX (R346). -/
abbrev Obj.sessMax : Nat := 0x8000
/-- SESS_IDLE (R346). -/
abbrev Obj.sessIdle : Nat := 0x8001
/-- SESS_INFO (R346; subs 0x01 to 0x08). -/
abbrev Obj.sessInfo : Nat := 0x8002
/-- SESS_FAILS (R346). -/
abbrev Obj.sessFails : Nat := 0x8003
/-- SESS_LOCK_LEFT (R346). -/
abbrev Obj.sessLockLeft : Nat := 0x8004
/-- FUSE_ARITH_MAX (R369). -/
abbrev Obj.fuseArithMax : Nat := 0x2000
/-- FUSE_POWER_MAX (R369). -/
abbrev Obj.fusePowerMax : Nat := 0x2001
/-- FUSE_SPARE_USED (R369). -/
abbrev Obj.fuseSpareUsed : Nat := 0x2002
/-- RAISE_STEPS_DONE (R369). -/
abbrev Obj.raiseStepsDone : Nat := 0x2010
/-- RAISE_BAY_PASS (R369). -/
abbrev Obj.raiseBayPass : Nat := 0x2011
/-- RAISE_CH_TRAINED (R369). -/
abbrev Obj.raiseChTrained : Nat := 0x2012
/-- RAISE_SOAK_BITS (R369; subs 0x01 to 0x06). -/
abbrev Obj.raiseSoakBits : Nat := 0x2013
/-- RAISE_SOFT (R369). -/
abbrev Obj.raiseSoft : Nat := 0x2014
/-- RAISE_STORED (R369). -/
abbrev Obj.raiseStored : Nat := 0x2015
/-- RAISE_LAST_MS (R369). -/
abbrev Obj.raiseLastMs : Nat := 0x2016
/-- FW_BOOT_RUN (R392). -/
abbrev Obj.fwBootRun : Nat := 0x7100
/-- FW_BANK_VER (R392; subs 0x01 to 0x02). -/
abbrev Obj.fwBankVer : Nat := 0x7101
/-- FW_CONFIRMED_BANK (R392). -/
abbrev Obj.fwConfirmedBank : Nat := 0x7102
/-- FW_UPD_STATE (R392). -/
abbrev Obj.fwUpdState : Nat := 0x7103
/-- FW_TRIALS (R392). -/
abbrev Obj.fwTrials : Nat := 0x7104
/-- FW_CONFIRM (R392). -/
abbrev Obj.fwConfirm : Nat := 0x7105
/-- FW_UPD_ARM (R392). -/
abbrev Obj.fwUpdArm : Nat := 0x7106
/-- FW_ROLLBACK (R392). -/
abbrev Obj.fwRollback : Nat := 0x7107
/-- FW_SETTINGS_FMT (R392). -/
abbrev Obj.fwSettingsFmt : Nat := 0x7108
/-- FW_RECOVER (R392). -/
abbrev Obj.fwRecover : Nat := 0x7109
/-- FW_BOOT_FAILS (R392). -/
abbrev Obj.fwBootFails : Nat := 0x710a
/-- FW_WDT_MS (R392). -/
abbrev Obj.fwWdtMs : Nat := 0x7110
/-- FW_RESTARTS (R392). -/
abbrev Obj.fwRestarts : Nat := 0x7111
/-- FW_RESTART_WHY (R392). -/
abbrev Obj.fwRestartWhy : Nat := 0x7112
/-- FW_RESTART (R392). -/
abbrev Obj.fwRestart : Nat := 0x7113
/-- FW_RT_VER (R392). -/
abbrev Obj.fwRtVer : Nat := 0x7114
/-- FW_UCODE_VER (R392). -/
abbrev Obj.fwUcodeVer : Nat := 0x7115
/-- FW_TRACE_DICT (R392). -/
abbrev Obj.fwTraceDict : Nat := 0x7116
/-- SEC_ID_PUB (R406). -/
abbrev Obj.secIdPub : Nat := 0x8100
/-- SEC_ID_CERT (R406). -/
abbrev Obj.secIdCert : Nat := 0x8101
/-- SEC_IDX_NEXT (R406). -/
abbrev Obj.secIdxNext : Nat := 0x8102
/-- SEC_IDX_TOP (R406). -/
abbrev Obj.secIdxTop : Nat := 0x8103
/-- SEC_IDX_FLOOR (R406). -/
abbrev Obj.secIdxFloor : Nat := 0x8104
/-- SEC_IDX_LEFT (R406). -/
abbrev Obj.secIdxLeft : Nat := 0x8105
/-- SEC_IMG_ROOT (R406; subs 0x01 to 0x04). -/
abbrev Obj.secImgRoot : Nat := 0x8110
/-- SEC_IMG_REVOKED (R406). -/
abbrev Obj.secImgRevoked : Nat := 0x8111
/-- SEC_SESS_ROOT (R406; subs 0x01 to 0x08). -/
abbrev Obj.secSessRoot : Nat := 0x8120
/-- SEC_QUOTE_REQ (R406). -/
abbrev Obj.secQuoteReq : Nat := 0x8130
/-- SEC_QUOTE (R406). -/
abbrev Obj.secQuote : Nat := 0x8131
/-- SEC_QUOTES (R406). -/
abbrev Obj.secQuotes : Nat := 0x8132
/-- SEC_LAST_PLACE (R406). -/
abbrev Obj.secLastPlace : Nat := 0x8140
/-- SEC_MOVED (R406). -/
abbrev Obj.secMoved : Nat := 0x8141
/-- PART_EDGE (R433; subs 0x01 to 0x08). -/
abbrev Obj.partEdge : Nat := 0x3110
/-- PART_GEN (R433; subs 0x01 to 0x08). -/
abbrev Obj.partGen : Nat := 0x3111
/-- PART_RESETS (R433; subs 0x01 to 0x08). -/
abbrev Obj.partResets : Nat := 0x3112
/-- PART_RESET_WHY (R433; subs 0x01 to 0x08). -/
abbrev Obj.partResetWhy : Nat := 0x3113
/-- JOB_WAIT (R433; subs 0x01 to 0x08). -/
abbrev Obj.jobWait : Nat := 0x4023
/-- FW_WARM (R433). -/
abbrev Obj.fwWarm : Nat := 0x7117
/-- FW_WARM_WHY (R433). -/
abbrev Obj.fwWarmWhy : Nat := 0x7118
/-- FW_WARMS (R433). -/
abbrev Obj.fwWarms : Nat := 0x7119
/-- FW_FAB_HUNG (R433). -/
abbrev Obj.fwFabHung : Nat := 0x711a
/-- PWR_VIN (R458). -/
abbrev Obj.pwrVin : Nat := 0x6000
/-- PWR_IN (R458). -/
abbrev Obj.pwrIn : Nat := 0x6001
/-- PWR_CAP (R458). -/
abbrev Obj.pwrCap : Nat := 0x6002
/-- PWR_LIMIT (R458). -/
abbrev Obj.pwrLimit : Nat := 0x6003
/-- PWR_LIMIT_WHY (R458). -/
abbrev Obj.pwrLimitWhy : Nat := 0x6004
/-- PWR_STAGE (R458). -/
abbrev Obj.pwrStage : Nat := 0x6005
/-- PWR_BRACE (R458). -/
abbrev Obj.pwrBrace : Nat := 0x6006
/-- PWR_BRACES (R458). -/
abbrev Obj.pwrBraces : Nat := 0x6007
/-- PWR_ARITH (R458). -/
abbrev Obj.pwrArith : Nat := 0x6008
/-- PWR_ARITH_WHY (R458). -/
abbrev Obj.pwrArithWhy : Nat := 0x6009
/-- PWR_CAP_UNMET (R458). -/
abbrev Obj.pwrCapUnmet : Nat := 0x600a
/-- PWR_LAST_OFF (R458). -/
abbrev Obj.pwrLastOff : Nat := 0x600b
/-- COOL_INLET (R458). -/
abbrev Obj.coolInlet : Nat := 0x6010
/-- COOL_OUTLET (R458). -/
abbrev Obj.coolOutlet : Nat := 0x6011
/-- COOL_FLOW (R458). -/
abbrev Obj.coolFlow : Nat := 0x6012
/-- COOL_FLOW_REQ (R458). -/
abbrev Obj.coolFlowReq : Nat := 0x6013
/-- COOL_FORECAST (R458). -/
abbrev Obj.coolForecast : Nat := 0x6014
/-- COOL_STATE (R458). -/
abbrev Obj.coolState : Nat := 0x6015
/-- THERM_HOT (R458). -/
abbrev Obj.thermHot : Nat := 0x6020
/-- THERM_BAY (R458; subs 0x01 to 0x40). -/
abbrev Obj.thermBay : Nat := 0x6021
/-- THERM_MC (R458; subs 0x01 to 0x18). -/
abbrev Obj.thermMc : Nat := 0x6022
/-- THERM_MASK (R458). -/
abbrev Obj.thermMask : Nat := 0x6023
/-- THERM_DEGRADED (R458). -/
abbrev Obj.thermDegraded : Nat := 0x6024
/-- SCR_SEQ_NEXT (R468). -/
abbrev Obj.scrSeqNext : Nat := 0x7000
/-- SCR_BOOTS (R468). -/
abbrev Obj.scrBoots : Nat := 0x7001
/-- SCR_RATE (R468). -/
abbrev Obj.scrRate : Nat := 0x7002
/-- SCR_RATE_OVR (R468). -/
abbrev Obj.scrRateOvr : Nat := 0x7003
/-- SCR_SUPPRESSED (R468). -/
abbrev Obj.scrSuppressed : Nat := 0x7004
/-- SCR_GEN_LOST (R468). -/
abbrev Obj.scrGenLost : Nat := 0x7005
/-- SCR_CLEAR (R468). -/
abbrev Obj.scrClear : Nat := 0x7006
/-- SCR_CODES (R468). -/
abbrev Obj.scrCodes : Nat := 0x7007
/-- SCR_GEN (R468; subs 0x01 to 0x04). -/
abbrev Obj.scrGen : Nat := 0x7010
/-- SCR_FIRST (R468; subs 0x01 to 0x04). -/
abbrev Obj.scrFirst : Nat := 0x7020
/-- SCR_LAST (R468; subs 0x01 to 0x04). -/
abbrev Obj.scrLast : Nat := 0x7021
/-- CLK_ROOT (R480). -/
abbrev Obj.clkRoot : Nat := 0x2020
/-- CLK_GATE_M (R480). -/
abbrev Obj.clkGateM : Nat := 0x2021
/-- CLK_REF (R480). -/
abbrev Obj.clkRef : Nat := 0x2022
/-- CLK_TIME_OK (R480). -/
abbrev Obj.clkTimeOk : Nat := 0x2023
/-- CLK_TIME_SET (R480). -/
abbrev Obj.clkTimeSet : Nat := 0x2024
/-- CLK_XING_TO (R480). -/
abbrev Obj.clkXingTo : Nat := 0x2025
/-- CLK_OVERRUN (R480). -/
abbrev Obj.clkOverrun : Nat := 0x2026

/-- Rows of indices 0x1000 to 0x1fff. -/
def objRows1a : List ObjRow := [
  ⟨0x1000, 0, 0, .str, .ro, true, true, true, .blob [], 0, 0⟩,
  ⟨0x1001, 0, 0, .str, .ro, true, true, true, .blob [], 0, 0⟩,
  ⟨0x1002, 0, 0, .u8, .ro, true, true, true, .num 0, 0, 255⟩,
  ⟨0x1003, 0, 0, .u64, .ro, true, true, true, .num 0, 0, 0xffffffffffffffff⟩,
  ⟨0x1004, 0, 0, .u8, .ro, true, true, true, .num 0, 0, 255⟩,
  ⟨0x1005, 0, 0, .u32, .ro, true, true, false, .num 0, 0, 0xffffffff⟩,
  ⟨0x1006, 0, 0, .u64, .ro, true, true, false, .num 0, 0, 0xffffffffffffffff⟩,
  ⟨0x1010, 0, 0, .u8, .ro, true, true, true, .num 3, 0, 255⟩,
  ⟨0x1011, 0, 0, .u16, .rws, true, true, false, .num 0x5a11, 1024, 65535⟩,
  ⟨0x1012, 0, 0, .u8, .rws, true, true, false, .num 1, 0, 1⟩,
  ⟨0x1013, 0, 0, .blob, .ro, true, true, false, .blob [], 0, 0⟩,
  ⟨0x1014, 0, 0, .u64, .ro, false, false, false, .num 0, 0, 0xffffffffffffffff⟩,
  ⟨0x1015, 0, 0, .u64, .ro, false, false, false, .num 0, 0, 0xffffffffffffffff⟩,
  ⟨0x1016, 0, 0, .u64, .ro, false, false, false, .num 0, 0, 0xffffffffffffffff⟩]

/-- Rows of indices 0x2000 to 0x2fff. -/
def objRows2a : List ObjRow := [
  ⟨0x2000, 0, 0, .u32, .ro, true, true, true, .num 0, 0, 0xffffffff⟩,
  ⟨0x2001, 0, 0, .u32, .ro, true, true, true, .num 0, 0, 0xffffffff⟩,
  ⟨0x2002, 0, 0, .u32, .ro, true, true, true, .num 0, 0, 0xffffffff⟩,
  ⟨0x2010, 0, 0, .u16, .ro, true, false, false, .num 0, 0, 65535⟩,
  ⟨0x2011, 0, 0, .u64, .ro, true, true, false, .num 0, 0, 0xffffffffffffffff⟩,
  ⟨0x2012, 0, 0, .blob, .ro, true, false, false, .blob (zeroBytes 24), 0, 0⟩,
  ⟨0x2013, 1, 6, .u64, .ro, true, false, false, .num 0, 0, 0xffffffffffffffff⟩,
  ⟨0x2014, 0, 0, .blob, .ro, true, true, true, .blob [], 0, 0⟩,
  ⟨0x2015, 0, 0, .u8, .ro, true, true, true, .num 0, 0, 255⟩,
  ⟨0x2016, 0, 0, .u32, .ro, true, false, false, .num 0, 0, 0xffffffff⟩,
  ⟨0x2020, 0, 0, .u32, .ro, true, false, false, .num 0, 0, 0xffffffff⟩,
  ⟨0x2021, 0, 0, .u16, .ro, true, false, false, .num 256, 0, 65535⟩,
  ⟨0x2022, 0, 0, .u8, .ro, true, false, false, .num 2, 0, 255⟩,
  ⟨0x2023, 0, 0, .u8, .ro, true, true, false, .num 0, 0, 255⟩,
  ⟨0x2024, 0, 0, .u64, .rws, false, false, false, .num 0, 0, 0xffffffffffffffff⟩,
  ⟨0x2025, 0, 0, .u32, .ro, true, false, false, .num 0, 0, 0xffffffff⟩,
  ⟨0x2026, 0, 0, .u16, .ro, true, false, false, .num 0, 0, 65535⟩]

/-- Rows of indices 0x3000 to 0x3fff. -/
def objRows3a : List ObjRow := [
  ⟨0x3000, 1, 4, .u32, .rws, true, true, false, .num 1000, 200, 60000⟩,
  ⟨0x3001, 1, 4, .u32, .rws, true, true, false, .num 60, 0, 3600⟩,
  ⟨0x3002, 1, 4, .u16, .rws, true, true, false, .num 4096, 0, 65535⟩,
  ⟨0x3003, 1, 4, .u8, .ro, true, false, false, .num 0, 0, 255⟩,
  ⟨0x3004, 1, 4, .u32, .ro, true, false, false, .num 0, 0, 0xffffffff⟩,
  ⟨0x3005, 1, 4, .u32, .ro, true, false, false, .num 0, 0, 0xffffffff⟩,
  ⟨0x3100, 1, 8, .u8, .rws, true, true, false, .num 0, 0, 255⟩,
  ⟨0x3101, 1, 8, .u8, .rws, true, true, false, .num 255, 0, 255⟩,
  ⟨0x3102, 1, 8, .u16, .rws, true, true, false, .num 0, 0, 65535⟩,
  ⟨0x3103, 1, 8, .u16, .rws, true, true, false, .num 0, 0, 65535⟩,
  ⟨0x3104, 1, 8, .u8, .ro, true, true, false, .num 0, 0, 255⟩,
  ⟨0x3105, 1, 8, .u8, .ro, true, true, false, .num 0, 0, 255⟩,
  ⟨0x3110, 1, 8, .u8, .rws, true, true, false, .num 0, 0, 1⟩,
  ⟨0x3111, 1, 8, .u16, .ro, true, true, false, .num 0, 0, 65535⟩,
  ⟨0x3112, 1, 8, .u32, .ro, true, true, false, .num 0, 0, 0xffffffff⟩,
  ⟨0x3113, 1, 8, .u8, .ro, true, true, false, .num 0, 0, 255⟩,
  ⟨0x3400, 1, 8, .u8, .rws, true, true, false, .num 4, 1, 16⟩,
  ⟨0x3401, 1, 8, .u64, .ro, true, false, false, .num 0, 0, 0xffffffffffffffff⟩,
  ⟨0x3402, 1, 8, .u64, .ro, true, false, false, .num 0, 0, 0xffffffffffffffff⟩,
  ⟨0x3403, 1, 8, .u32, .ro, true, false, false, .num 0, 0, 0xffffffff⟩,
  ⟨0x3404, 1, 8, .u16, .ro, true, true, false, .num 0, 0, 65535⟩]

/-- Rows of indices 0x4000 to 0x4fff. -/
def objRows4a : List ObjRow := [
  ⟨0x4000, 1, 6, .u8, .ro, true, false, false, .num 0, 0, 255⟩,
  ⟨0x4001, 1, 6, .u8, .ro, true, false, false, .num 0, 0, 255⟩,
  ⟨0x4002, 1, 6, .u8, .rws, true, true, false, .num 3, 0, 3⟩,
  ⟨0x4003, 1, 6, .f32, .ro, true, false, false, .num 0, 0, 0xffffffff⟩,
  ⟨0x4004, 1, 6, .u64, .ro, true, false, false, .num 0, 0, 0xffffffffffffffff⟩,
  ⟨0x4005, 1, 6, .u64, .ro, true, false, false, .num 0, 0, 0xffffffffffffffff⟩,
  ⟨0x4006, 1, 6, .u64, .ro, true, false, false, .num 0, 0, 0xffffffffffffffff⟩,
  ⟨0x4007, 1, 6, .blob, .ro, true, false, false, .blob [], 0, 0⟩,
  ⟨0x4008, 1, 6, .u8, .ro, true, false, false, .num 0, 0, 255⟩,
  ⟨0x4009, 1, 6, .u16, .ro, true, false, false, .num 0xffff, 0, 65535⟩,
  ⟨0x4010, 0, 0, .u32, .ro, true, false, false, .num 0, 0, 0xffffffff⟩,
  ⟨0x4011, 0, 0, .u8, .rws, true, true, false, .num 0, 0, 255⟩,
  ⟨0x4012, 0, 0, .blob, .rws, true, true, false, .blob [], 0, 0⟩,
  ⟨0x4013, 0, 0, .u64, .ro, true, false, false, .num 0, 0, 0xffffffffffffffff⟩,
  ⟨0x4014, 0, 0, .blob, .rws, true, true, false, .blob [], 0, 0⟩,
  ⟨0x4020, 1, 8, .u16, .rws, true, false, false, .num 0xffff, 0, 65535⟩,
  ⟨0x4021, 1, 8, .u16, .rws, true, false, false, .num 0, 0, 65535⟩,
  ⟨0x4022, 1, 8, .blob, .rws, true, false, false, .blob [], 0, 0⟩,
  ⟨0x4023, 1, 8, .u8, .ro, true, true, false, .num 0, 0, 255⟩,
  ⟨0x4030, 0, 0, .u32, .rws, true, true, false, .num 50, 5, 0x186a0⟩,
  ⟨0x4031, 0, 0, .u64, .ro, true, false, false, .num 0, 0, 0xffffffffffffffff⟩,
  ⟨0x4032, 0, 0, .u64, .ro, true, false, false, .num 0, 0, 0xffffffffffffffff⟩,
  ⟨0x4033, 0, 0, .u64, .ro, true, false, false, .num 0, 0, 0xffffffffffffffff⟩,
  ⟨0x4034, 0, 0, .u64, .ro, true, false, false, .num 0, 0, 0xffffffffffffffff⟩]

/-- Rows of indices 0x4000 to 0x4fff. -/
def objRows4b : List ObjRow := [
  ⟨0x4800, 1, 8, .u8, .rws, true, true, false, .num 4, 0, 32⟩,
  ⟨0x4801, 0, 0, .u32, .rws, true, true, false, .num 200, 20, 0x186a0⟩,
  ⟨0x4802, 1, 8, .u64, .ro, true, false, false, .num 0, 0, 0xffffffffffffffff⟩,
  ⟨0x4803, 1, 8, .u64, .ro, true, false, false, .num 0, 0, 0xffffffffffffffff⟩,
  ⟨0x4804, 1, 8, .u32, .ro, true, false, false, .num 0, 0, 0xffffffff⟩,
  ⟨0x4805, 0, 0, .u64, .ro, true, false, false, .num 0, 0, 0xffffffffffffffff⟩,
  ⟨0x4806, 1, 8, .u8, .ro, true, false, false, .num 0, 0, 255⟩]

/-- Rows of indices 0x5000 to 0x5fff. -/
def objRows5a : List ObjRow := [
  ⟨0x5000, 1, 1, .u16, .ro, true, true, true, .num 0, 0, 65535⟩,
  ⟨0x5000, 2, 2, .u16, .rws, true, true, false, .num 0, 0, 65535⟩,
  ⟨0x5000, 3, 3, .u16, .ro, true, true, false, .num 0, 0, 65535⟩,
  ⟨0x5001, 0, 0, .u32, .ro, true, true, false, .num 0, 0, 0xffffffff⟩,
  ⟨0x5002, 0, 0, .u32, .ro, true, true, false, .num 0, 0, 0xffffffff⟩,
  ⟨0x5003, 0, 0, .u32, .ro, true, true, false, .num 0, 0, 0xffffffff⟩,
  ⟨0x5010, 0, 0, .u8, .rws, true, true, false, .num 128, 32, 224⟩,
  ⟨0x5011, 0, 0, .u16, .rws, true, true, false, .num 24, 6, 168⟩,
  ⟨0x5100, 1, 8, .u32, .rws, true, true, false, .num 0, 0, 0xffffffff⟩,
  ⟨0x5101, 1, 8, .u32, .rws, true, true, false, .num 0, 0, 0xffffffff⟩,
  ⟨0x5102, 1, 8, .u16, .rws, true, true, false, .num 0, 0, 65535⟩,
  ⟨0x5103, 1, 8, .u32, .rws, true, true, false, .num 0, 0, 0xffffffff⟩,
  ⟨0x5104, 1, 8, .blob, .rws, true, true, false, .blob [], 0, 0⟩,
  ⟨0x5105, 1, 8, .u32, .ro, true, true, false, .num 0, 0, 0xffffffff⟩,
  ⟨0x5106, 1, 8, .u32, .ro, true, true, false, .num 0, 0, 0xffffffff⟩,
  ⟨0x5200, 0, 0, .u64, .ro, true, false, false, .num 0, 0, 0xffffffffffffffff⟩,
  ⟨0x5201, 0, 0, .u64, .ro, true, false, false, .num 0, 0, 0xffffffffffffffff⟩,
  ⟨0x5300, 1, 24, .u32, .ro, true, false, false, .num 0, 0, 0xffffffff⟩,
  ⟨0x5301, 1, 24, .u32, .ro, true, false, false, .num 0, 0, 0xffffffff⟩,
  ⟨0x5302, 0, 0, .u16, .ro, true, true, true, .num 0, 0, 65535⟩]

/-- Rows of indices 0x6000 to 0x6fff. -/
def objRows6a : List ObjRow := [
  ⟨0x6000, 0, 0, .f32, .ro, true, true, false, .num 0, 0, 0xffffffff⟩,
  ⟨0x6001, 0, 0, .f32, .ro, true, true, false, .num 0, 0, 0xffffffff⟩,
  ⟨0x6002, 0, 0, .u32, .rws, true, true, false, .num 0, 0, 0xffffffff⟩,
  ⟨0x6003, 0, 0, .u32, .ro, true, false, false, .num 0, 0, 0xffffffff⟩,
  ⟨0x6004, 0, 0, .u8, .ro, true, false, false, .num 1, 0, 255⟩,
  ⟨0x6005, 0, 0, .u8, .ro, true, true, false, .num 0, 0, 255⟩,
  ⟨0x6006, 0, 0, .u8, .ro, true, true, false, .num 0, 0, 255⟩,
  ⟨0x6007, 0, 0, .u32, .ro, true, true, false, .num 0, 0, 0xffffffff⟩,
  ⟨0x6008, 0, 0, .u32, .ro, true, true, false, .num 0, 0, 0xffffffff⟩,
  ⟨0x6009, 0, 0, .u8, .ro, true, true, false, .num 1, 0, 255⟩,
  ⟨0x600a, 0, 0, .u8, .ro, true, false, false, .num 0, 0, 255⟩,
  ⟨0x600b, 0, 0, .u8, .ro, true, true, false, .num 0, 0, 255⟩,
  ⟨0x6010, 0, 0, .f32, .ro, true, true, false, .num 0, 0, 0xffffffff⟩,
  ⟨0x6011, 0, 0, .f32, .ro, true, true, false, .num 0, 0, 0xffffffff⟩,
  ⟨0x6012, 0, 0, .f32, .ro, true, true, false, .num 0, 0, 0xffffffff⟩,
  ⟨0x6013, 0, 0, .f32, .ro, true, false, false, .num 0x3fc00000, 0, 0xffffffff⟩,
  ⟨0x6014, 0, 0, .u32, .ro, true, false, false, .num 0, 0, 0xffffffff⟩,
  ⟨0x6015, 0, 0, .u8, .ro, true, true, false, .num 0, 0, 255⟩,
  ⟨0x6020, 0, 0, .f32, .ro, true, true, false, .num 0, 0, 0xffffffff⟩,
  ⟨0x6021, 1, 64, .f32, .ro, true, true, false, .num 0, 0, 0xffffffff⟩,
  ⟨0x6022, 1, 24, .f32, .ro, true, true, false, .num 0, 0, 0xffffffff⟩,
  ⟨0x6023, 0, 0, .blob, .ro, true, true, false, .blob (zeroBytes 28), 0, 0⟩,
  ⟨0x6024, 0, 0, .blob, .ro, true, true, false, .blob (zeroBytes 11), 0, 0⟩]

/-- Rows of indices 0x7000 to 0x7fff. -/
def objRows7a : List ObjRow := [
  ⟨0x7000, 0, 0, .u32, .ro, true, true, true, .num 0, 0, 0xffffffff⟩,
  ⟨0x7001, 0, 0, .u16, .ro, true, true, true, .num 0, 0, 65535⟩,
  ⟨0x7002, 0, 0, .u16, .rws, true, true, true, .num 10, 1, 1000⟩,
  ⟨0x7003, 0, 0, .blob, .rws, true, true, true, .blob [], 0, 0⟩,
  ⟨0x7004, 0, 0, .u64, .ro, true, false, false, .num 0, 0, 0xffffffffffffffff⟩,
  ⟨0x7005, 0, 0, .u32, .ro, true, false, false, .num 0, 0, 0xffffffff⟩,
  ⟨0x7006, 0, 0, .u8, .rws, false, false, false, .num 0, 0, 31⟩,
  ⟨0x7007, 0, 0, .blob, .ro, true, false, false, .blob [], 0, 0⟩,
  ⟨0x7010, 1, 4, .blob, .ro, true, false, false, .blob [], 0, 0⟩,
  ⟨0x7020, 1, 4, .blob, .ro, true, true, true, .blob [], 0, 0⟩,
  ⟨0x7021, 1, 4, .blob, .ro, true, true, true, .blob [], 0, 0⟩,
  ⟨0x7100, 0, 0, .u32, .ro, true, false, false, .num 0, 0, 0xffffffff⟩,
  ⟨0x7101, 1, 2, .u32, .ro, true, true, true, .num 0, 0, 0xffffffff⟩,
  ⟨0x7102, 0, 0, .u8, .ro, true, true, true, .num 0, 0, 255⟩,
  ⟨0x7103, 0, 0, .u8, .ro, true, true, true, .num 0, 0, 255⟩,
  ⟨0x7104, 0, 0, .u8, .ro, true, true, true, .num 0, 0, 255⟩,
  ⟨0x7105, 0, 0, .u8, .rws, false, false, false, .num 0, 1, 2⟩,
  ⟨0x7106, 0, 0, .u32, .rws, false, false, false, .num 0, 0, 3600⟩,
  ⟨0x7107, 0, 0, .u8, .ro, true, true, true, .num 0, 0, 255⟩,
  ⟨0x7108, 0, 0, .u16, .ro, true, false, false, .num 0, 0, 65535⟩,
  ⟨0x7109, 0, 0, .u8, .rws, true, true, false, .num 0, 0, 1⟩,
  ⟨0x710a, 0, 0, .u8, .ro, true, true, true, .num 0, 0, 255⟩,
  ⟨0x7110, 0, 0, .u32, .rws, true, true, false, .num 250, 50, 2000⟩,
  ⟨0x7111, 0, 0, .u32, .ro, true, true, false, .num 0, 0, 0xffffffff⟩]

/-- Rows of indices 0x7000 to 0x7fff. -/
def objRows7b : List ObjRow := [
  ⟨0x7112, 0, 0, .u8, .ro, true, true, false, .num 0, 0, 255⟩,
  ⟨0x7113, 0, 0, .u8, .rws, false, false, false, .num 0, 1, 1⟩,
  ⟨0x7114, 0, 0, .u32, .ro, true, false, false, .num 0, 0, 0xffffffff⟩,
  ⟨0x7115, 0, 0, .u32, .ro, true, false, false, .num 0, 0, 0xffffffff⟩,
  ⟨0x7116, 0, 0, .blob, .ro, true, false, false, .blob [], 0, 0⟩,
  ⟨0x7117, 0, 0, .u8, .rws, false, false, false, .num 0, 1, 1⟩,
  ⟨0x7118, 0, 0, .u8, .ro, true, true, false, .num 0, 0, 255⟩,
  ⟨0x7119, 0, 0, .u32, .ro, true, true, false, .num 0, 0, 0xffffffff⟩,
  ⟨0x711a, 0, 0, .u64, .ro, true, false, false, .num 0, 0, 0xffffffffffffffff⟩]

/-- Rows of indices 0x8000 to 0x8fff. -/
def objRows8a : List ObjRow := [
  ⟨0x8000, 0, 0, .u8, .ro, true, true, true, .num 8, 0, 255⟩,
  ⟨0x8001, 0, 0, .u32, .rws, true, true, false, .num 60, 10, 3600⟩,
  ⟨0x8002, 1, 8, .blob, .ro, false, false, false, .blob (zeroBytes 16), 0, 0⟩,
  ⟨0x8003, 0, 0, .u32, .ro, true, false, false, .num 0, 0, 0xffffffff⟩,
  ⟨0x8004, 0, 0, .u32, .ro, false, false, false, .num 0, 0, 0xffffffff⟩,
  ⟨0x8100, 0, 0, .blob, .ro, true, true, true, .blob [], 0, 0⟩,
  ⟨0x8101, 0, 0, .blob, .ro, true, true, true, .blob [], 0, 0⟩,
  ⟨0x8102, 0, 0, .u64, .ro, true, false, false, .num 0, 0, 0xffffffffffffffff⟩,
  ⟨0x8103, 0, 0, .u64, .ro, true, true, true, .num 0, 0, 0xffffffffffffffff⟩,
  ⟨0x8104, 0, 0, .u64, .ro, true, true, true, .num 0, 0, 0xffffffffffffffff⟩,
  ⟨0x8105, 0, 0, .u64, .ro, true, false, false, .num 2, 0, 0xffffffffffffffff⟩,
  ⟨0x8110, 1, 4, .blob, .ro, true, true, true, .blob [], 0, 0⟩,
  ⟨0x8111, 0, 0, .u8, .rws, true, true, true, .num 0, 0, 255⟩,
  ⟨0x8120, 1, 8, .blob, .rws, true, true, true, .blob [], 0, 0⟩,
  ⟨0x8130, 0, 0, .blob, .wo, false, false, false, .blob [], 0, 0⟩,
  ⟨0x8131, 0, 0, .blob, .ro, false, false, false, .blob [], 0, 0⟩,
  ⟨0x8132, 0, 0, .u64, .ro, true, false, false, .num 0, 0, 0xffffffffffffffff⟩,
  ⟨0x8140, 0, 0, .u32, .ro, true, true, true, .num 0xffffffff, 0, 0xffffffff⟩,
  ⟨0x8141, 0, 0, .u8, .rws, true, true, true, .num 0, 0, 0⟩]

/-- Every object of the dictionary. -/
def objRows : List ObjRow :=
  objRows1a ++ objRows2a ++ objRows3a ++ objRows4a ++ objRows4b ++ objRows5a ++ objRows6a ++ objRows7a ++ objRows7b ++ objRows8a

/-- The row of an object (R321). -/
def objRow (i sub : Nat) : Option ObjRow := objRows.find? fun r => r.index == i && decide (r.lo ≤ sub) && decide (sub ≤ r.hi)

/-- The key of an object in `State.objs`. -/
def objKey (i sub : Nat) : Nat := 256 * i + sub

/-- An object's Default (R11). -/
def objInit (k : Nat) : Val :=
  match objRow (k / 256) (k % 256) with
  | some r => r.init
  | none => .num 0

/-- What an object holds. -/
def State.obj (s : State) (i sub : Nat) : Val := look (objInit (objKey i sub)) s.objs (objKey i sub)
/-- The state with an object's value stored. -/
def State.setObj (s : State) (i sub : Nat) (v : Val) : State :=
  { s with objs := put (objInit (objKey i sub)) s.objs (objKey i sub) v }
/-- A number that an object holds. -/
def State.getN (s : State) (i sub : Nat) : Nat :=
  match s.obj i sub with
  | .num n => n
  | .blob _ => 0
/-- The state with a number stored in an object. -/
def State.setN (s : State) (i sub n : Nat) : State := s.setObj i sub (.num n)
/-- The bytes that an object holds. -/
def State.getB (s : State) (i sub : Nat) : Bytes :=
  match s.obj i sub with
  | .num _ => []
  | .blob bs => bs
/-- The state with bytes stored in an object. -/
def State.setB (s : State) (i sub : Nat) (bs : Bytes) : State := s.setObj i sub (.blob bs)
/-- A counter of `w` bits advanced by `k`. -/
def State.count (s : State) (i sub : Nat) (w : Nat := 32) (k : Nat := 1) : State :=
  s.setN i sub ((s.getN i sub + k) % 2 ^ w)

/-! ## Registers of the mortise window -/

/-- A row of a register table: byte offset, size in bytes, access, kept across a management complex, a warm and a cold reset,
Default. -/
structure RegRow where
  offset : Nat
  size   : Nat
  access : Access
  mgmt   : Bool
  warm   : Bool
  cold   : Bool
  init   : Nat
  deriving DecidableEq, Repr

/-- ID_MAGIC (R302). -/
abbrev Reg.idMagic : Nat := 0x0
/-- ID_LAYOUT (R302). -/
abbrev Reg.idLayout : Nat := 0x4
/-- ID_VARIANT (R302). -/
abbrev Reg.idVariant : Nat := 0x8
/-- ID_PORT (R302). -/
abbrev Reg.idPort : Nat := 0xc
/-- ID_SERIAL (R302). -/
abbrev Reg.idSerial : Nat := 0x10
/-- ID_FW (R302). -/
abbrev Reg.idFw : Nat := 0x18
/-- ID_COORD (R302). -/
abbrev Reg.idCoord : Nat := 0x1c
/-- HP_HEARTBEAT (R302). -/
abbrev Reg.hpHeartbeat : Nat := 0x100
/-- HP_STATUS (R302). -/
abbrev Reg.hpStatus : Nat := 0x104
/-- HP_CTRL (R302). -/
abbrev Reg.hpCtrl : Nat := 0x108
/-- HP_HOLD_LEFT (R302). -/
abbrev Reg.hpHoldLeft : Nat := 0x10c
/-- HP_TIME_LO (R302). -/
abbrev Reg.hpTimeLo : Nat := 0x110
/-- HP_TIME_HI (R302). -/
abbrev Reg.hpTimeHi : Nat := 0x114
/-- HP_APER_ERR (R302). -/
abbrev Reg.hpAperErr : Nat := 0x118
/-- PT_SEL (R305). -/
abbrev Reg.ptSel : Nat := 0x4000
/-- PT_CMD (R305). -/
abbrev Reg.ptCmd : Nat := 0x4004
/-- PT_RESULT (R305). -/
abbrev Reg.ptResult : Nat := 0x4008
/-- PT_STATE (R305). -/
abbrev Reg.ptState : Nat := 0x400c
/-- PT_CTX_SEL (R305). -/
abbrev Reg.ptCtxSel : Nat := 0x4010
/-- PT_CTX_INFO (R305). -/
abbrev Reg.ptCtxInfo : Nat := 0x4014
/-- PT_APER_PART (R305). -/
abbrev Reg.ptAperPart : Nat := 0x4018
/-- PT_APER_BASE (R305). -/
abbrev Reg.ptAperBase : Nat := 0x4020
/-- QS_QID (R306). -/
abbrev Reg.qsQid : Nat := 0x1000
/-- QS_SQ_BASE (R306). -/
abbrev Reg.qsSqBase : Nat := 0x1008
/-- QS_SQ_SIZE (R306). -/
abbrev Reg.qsSqSize : Nat := 0x1010
/-- QS_CQ_BASE (R306). -/
abbrev Reg.qsCqBase : Nat := 0x1018
/-- QS_CQ_SIZE (R306). -/
abbrev Reg.qsCqSize : Nat := 0x1020
/-- QS_VECTOR (R306). -/
abbrev Reg.qsVector : Nat := 0x1024
/-- QS_PART (R306). -/
abbrev Reg.qsPart : Nat := 0x1028
/-- QS_WEIGHT (R306). -/
abbrev Reg.qsWeight : Nat := 0x102c
/-- QS_TIMEOUT (R306). -/
abbrev Reg.qsTimeout : Nat := 0x1030
/-- QS_CMD (R306). -/
abbrev Reg.qsCmd : Nat := 0x1034
/-- QS_RESULT (R306). -/
abbrev Reg.qsResult : Nat := 0x1038
/-- MB_CTRL (R344). -/
abbrev Reg.mbCtrl : Nat := 0x400
/-- MB_STATUS (R344). -/
abbrev Reg.mbStatus : Nat := 0x404
/-- MB_REQ_LEN (R344). -/
abbrev Reg.mbReqLen : Nat := 0x408
/-- MB_RSP_LEN (R344). -/
abbrev Reg.mbRspLen : Nat := 0x40c
/-- RS_CMD (R350). -/
abbrev Reg.rsCmd : Nat := 0x200
/-- RS_ARG (R350). -/
abbrev Reg.rsArg : Nat := 0x204
/-- RS_RESULT (R350). -/
abbrev Reg.rsResult : Nat := 0x208
/-- RS_STEP (R350). -/
abbrev Reg.rsStep : Nat := 0x20c
/-- RS_DETAIL (R350). -/
abbrev Reg.rsDetail : Nat := 0x210
/-- RS_SERVICE (R350). -/
abbrev Reg.rsService : Nat := 0x214
/-- RS_OWNER (R350). -/
abbrev Reg.rsOwner : Nat := 0x218
/-- RS_IMG_ADDR (R350). -/
abbrev Reg.rsImgAddr : Nat := 0x220
/-- RS_IMG_LEN (R350). -/
abbrev Reg.rsImgLen : Nat := 0x228
/-- RS_PROGRESS (R350). -/
abbrev Reg.rsProgress : Nat := 0x22c
/-- RS_FAST (R350). -/
abbrev Reg.rsFast : Nat := 0x230
/-- LG_BASE (R380). -/
abbrev Reg.lgBase : Nat := 0x8000
/-- LG_SIZE (R380). -/
abbrev Reg.lgSize : Nat := 0x8008
/-- LG_CTRL (R380). -/
abbrev Reg.lgCtrl : Nat := 0x800c
/-- LG_HEAD (R380). -/
abbrev Reg.lgHead : Nat := 0x8010
/-- LG_TAIL (R380). -/
abbrev Reg.lgTail : Nat := 0x8014
/-- LG_LOST (R380). -/
abbrev Reg.lgLost : Nat := 0x8018
/-- TR_ENABLE (R380). -/
abbrev Reg.trEnable : Nat := 0x8020
/-- HP_EMU_LATE (R380). -/
abbrev Reg.hpEmuLate : Nat := 0x8024
/-- QS_SHED (R438). -/
abbrev Reg.qsShed : Nat := 0x103c

/-- The lower window's registers. -/
def regRowsLow : List RegRow := [
  ⟨0x0, 4, .ro, true, true, true, 0x4d4a4b43⟩,
  ⟨0x4, 4, .ro, true, true, true, 0x1⟩,
  ⟨0x8, 4, .ro, true, true, true, 0x0⟩,
  ⟨0xc, 4, .ro, true, true, true, 0x0⟩,
  ⟨0x10, 8, .ro, true, true, true, 0x0⟩,
  ⟨0x18, 4, .ro, true, false, false, 0x0⟩,
  ⟨0x1c, 4, .ro, true, false, false, 0x0⟩,
  ⟨0x100, 4, .rws, true, false, false, 0x0⟩,
  ⟨0x104, 4, .ro, true, false, false, 0x0⟩,
  ⟨0x108, 4, .wo, false, false, false, 0x0⟩,
  ⟨0x10c, 4, .ro, true, false, false, 0x0⟩,
  ⟨0x110, 4, .ro, true, true, false, 0x0⟩,
  ⟨0x114, 4, .ro, true, true, false, 0x0⟩,
  ⟨0x118, 4, .ro, true, false, false, 0x0⟩,
  ⟨0x200, 4, .wo, false, false, false, 0x0⟩,
  ⟨0x204, 4, .rws, true, false, false, 0x0⟩,
  ⟨0x208, 4, .ro, true, false, false, 0x0⟩,
  ⟨0x20c, 4, .ro, true, false, false, 0x0⟩,
  ⟨0x210, 4, .ro, true, false, false, 0x0⟩,
  ⟨0x214, 4, .ro, true, false, false, 0x0⟩,
  ⟨0x218, 4, .ro, true, false, false, 0xff⟩,
  ⟨0x220, 8, .rws, true, false, false, 0x0⟩,
  ⟨0x228, 4, .rws, true, false, false, 0x0⟩,
  ⟨0x22c, 4, .ro, true, false, false, 0x0⟩,
  ⟨0x230, 4, .ro, true, false, false, 0x0⟩,
  ⟨0x400, 4, .wo, false, false, false, 0x0⟩,
  ⟨0x404, 4, .ro, false, false, false, 0x0⟩,
  ⟨0x408, 4, .rws, false, false, false, 0x0⟩]

/-- The upper window's registers. -/
def regRowsHigh : List RegRow := [
  ⟨0x40c, 4, .ro, false, false, false, 0x0⟩,
  ⟨0x1000, 4, .rws, true, false, false, 0x0⟩,
  ⟨0x1008, 8, .rws, true, false, false, 0x0⟩,
  ⟨0x1010, 4, .rws, true, false, false, 0x0⟩,
  ⟨0x1018, 8, .rws, true, false, false, 0x0⟩,
  ⟨0x1020, 4, .rws, true, false, false, 0x0⟩,
  ⟨0x1024, 4, .rws, true, false, false, 0xffffffff⟩,
  ⟨0x1028, 4, .rws, true, false, false, 0x0⟩,
  ⟨0x102c, 4, .rws, true, false, false, 0x1⟩,
  ⟨0x1030, 4, .rws, true, false, false, 0xf4240⟩,
  ⟨0x1034, 4, .wo, false, false, false, 0x0⟩,
  ⟨0x1038, 4, .ro, true, false, false, 0x0⟩,
  ⟨0x103c, 4, .rws, true, false, false, 0x0⟩,
  ⟨0x4000, 4, .rws, true, false, false, 0x0⟩,
  ⟨0x4004, 4, .wo, false, false, false, 0x0⟩,
  ⟨0x4008, 4, .ro, true, false, false, 0x0⟩,
  ⟨0x400c, 4, .ro, true, true, false, 0x0⟩,
  ⟨0x4010, 4, .rws, true, false, false, 0x0⟩,
  ⟨0x4014, 4, .ro, true, true, false, 0x0⟩,
  ⟨0x4018, 4, .rws, true, false, false, 0xffffffff⟩,
  ⟨0x4020, 8, .rws, true, false, false, 0x0⟩,
  ⟨0x8000, 8, .rws, true, false, false, 0x0⟩,
  ⟨0x8008, 4, .rws, true, false, false, 0x0⟩,
  ⟨0x800c, 4, .wo, false, false, false, 0x0⟩,
  ⟨0x8010, 4, .ro, true, false, false, 0x0⟩,
  ⟨0x8014, 4, .rws, true, false, false, 0x0⟩,
  ⟨0x8018, 4, .ro, true, false, false, 0x0⟩,
  ⟨0x8020, 4, .rws, true, false, false, 0x80000000⟩,
  ⟨0x8024, 4, .ro, true, false, false, 0x0⟩]

/-- Every register of the mortise window (R302, R305, R306, R344, R350, R380, R438). -/
def regRows : List RegRow := regRowsLow ++ regRowsHigh

/-- The row of the register at an offset. -/
def regRow (off : Nat) : Option RegRow := regRows.find? fun r => r.offset == off

/-- The key of a port's register in `State.regs`. The raising registers but RS_RESULT and RS_DETAIL are shared by
every port (R350) and lie under port index 4. -/
def regKey (n off : Nat) : Nat := (if 0x200 ≤ off ∧ off < 0x240 ∧ off ≠ 0x208 ∧ off ≠ 0x210 then 4 else n) * 0x1_0000 + off

/-- A register's Default (R11). -/
def regInit (off : Nat) : Nat :=
  match regRow off with
  | some r => r.init
  | none => 0

/-- What a register of port `n` holds. -/
def State.getR (s : State) (n off : Nat) : Nat := look (regInit off) s.regs (regKey n off)
/-- The state with a register of port `n` stored. -/
def State.setR (s : State) (n off v : Nat) : State := { s with regs := put (regInit off) s.regs (regKey n off) v }

end Sys2Proof.Machine
end

