-- ==== Sys2Proof/Machine/Scribe.lean ====
section
/-! DEFINITION. The Scribe records an event (R459 to R465), and the log rings receive its NOTICE (R380 to R382). -/

namespace Sys2Proof.Machine

/-! ## Time stamps (R430, R473) -/

/-- The time since the cold start in nanoseconds, by which the firmware's timers run (R327). -/
def State.uptime (s : State) : Nat := s.clock.up.toNat
/-- Rack time in nanoseconds. -/
def State.now (s : State) : Nat := s.clock.time.toNat
/-- The short stamp: rack time in microseconds, modulo 2^32 (R430). -/
def State.stamp (s : State) : Word := BitVec.ofNat 32 (s.now / 1000)
/-- The low and high words of a 64-bit number. -/
def twoWords (n : Nat) : List Nat := [n % 2 ^ 32, n / 2 ^ 32]

/-! ## Log rings -/

/-- Whether the runtime firmware acts: it is loaded and makes progress, and no restart runs (R301, R376 to R378). -/
def State.serving (s : State) : Bool := s.fw.image == .runtime && !s.fw.busy && !s.fw.hung && !s.pins.inReset

/-- The arguments of an entry: four words, unused ones zero. -/
def argBytes (args : List Nat) : Bytes := padTo 16 (args.flatMap (leBytes 4))

/-- An entry that the runtime firmware writes to a port's log ring, or drops and counts where the ring is full or Bus Master Enable is clear
(R370, R381); a ring that is stopped, or that does not enable the class, receives nothing (R382). While no runtime acts, an event has no entry
(DESIGN CHOICE, log 133). -/
def logTo (cls code : Nat) (args : List Nat) (s : State) (n : Nat) : State :=
  let p := s.port n
  if !p.logging ∨ !s.serving ∨ !(cls == 31 || bit (s.getR n Reg.trEnable) cls) then s
  else
    let h := s.getR n Reg.lgHead
    let room := s.getR n Reg.lgSize / 32
    if p.bme ∧ (h + 2 ^ 32 - s.getR n Reg.lgTail) % 2 ^ 32 < room then
      let bytes := leBytes 4 h ++ leBytes 1 cls ++ leBytes 1 args.length ++ leBytes 2 code ++ leBytes 8 s.now ++ argBytes args
      let s := s.send (.hostWrite n (BitVec.ofNat 64 (s.getR n Reg.lgBase + h % room * 32)) bytes)
      s.setR n Reg.lgHead ((h + 1) % 2 ^ 32)
    else s.setR n Reg.lgLost ((s.getR n Reg.lgLost + 1) % 2 ^ 32)

/-- The ports that a NOTICE goes to: the owner's for an entry that concerns a partition, every port's otherwise (R382). -/
def noticePorts (s : State) (part : Option Nat) : List Nat :=
  match part with
  | some p => [s.getN Obj.partOwner (p + 1)].filter (· < 4)
  | none => [0, 1, 2, 3]

/-! ## Recording -/

/-- A code's rate by values of SCR_RATE and SCR_RATE_OVR: its entry in the one, or the other (R464). -/
def rateBy (base : Nat) (ovr : Bytes) (code : Nat) : Nat :=
  match (pieces 4 64 ovr).find? fun e => field e 0 2 == code with
  | some e => field e 2 2
  | none => base

/-- A code's rate (R464). -/
def State.rate (s : State) (code : Nat) : Nat := rateBy (s.getN Obj.scrRate 0) (s.getB Obj.scrRateOvr 0) code

/-- The tokens in a code's bucket: at most its rate. A bucket that no event has taken from is full, but a rate that has risen since has put no token
into it (R464). -/
def State.tokens (s : State) (code : Nat) : Nat :=
  match look none s.scribe.tokens code with
  | some k => min k (s.rate code)
  | none => s.scribe.rates.foldl (fun m x => min m (rateBy x.1 x.2 code)) (s.rate code)

/-- The state with a code's bucket at some tokens. -/
def State.setTokens (s : State) (code k : Nat) : State :=
  { s with scribe := { s.scribe with tokens := put none s.scribe.tokens code (some k) } }

/-- The buckets after SCR_RATE or SCR_RATE_OVR, which were `base` and `ovr`, has been written: a lower rate leaves a bucket that many tokens, a higher
one adds none (R464). -/
def rateChanged (s : State) (base : Nat) (ovr : Bytes) : State :=
  { s with scribe := { s.scribe with
      tokens := s.scribe.tokens.map fun e => (e.1, e.2.map fun k => min k (s.rate e.1)), rates := (base, ovr) :: s.scribe.rates } }

/-- Codes that are never rate-limited: START, STAMP_MARK in any channel, SCR_CLEARED (R464, R465). -/
def unlimited (code : Nat) : Bool := code == 0x2000 || (code % 0x1000 == 0x001 && 0x1000 ≤ code) || code == 0x1020

/-- STAMP_MARK in any privileged channel (R465). -/
def isMark (code : Nat) : Bool := code % 0x1000 == 0x001 && 0x1000 ≤ code

/-- An entry put into an area before the entries that its cycle gave later values: the area and what it is to hold at most (R460). -/
def placeIn (later : Event → Bool) (l : List Event) (e : Event) : List Event := l.filter (!later ·) ++ e :: l.filter later

/-- An event put into a privileged channel's areas: the last area always, replacing its oldest entry where full, and the
first area while it holds fewer than 256, marks excepted (R462). -/
def Scribe.keep (x : Scribe) (ch : Nat) (mark : Bool) (later : Event → Bool) (e : Event) : Scribe :=
  let l := placeIn later (look [] x.last ch) e
  let f := placeIn later (look [] x.first ch) e
  { x with
    last := put [] x.last ch (l.drop (l.length - 1024))
    first := if mark then x.first else put [] x.first ch (f.take 256) }

/-- The codes recorded so far in the CTRL cycle of the event that is recorded next. One that follows a TICK begins a cycle of its own, and otherwise a
free value says whether it does (R460; log 8). -/
def State.postedNow (s : State) : List Nat :=
  match s.scribe.posted with
  | [] => []
  | l => if s.scribe.cycle = s.clock.up ∧ Config.sameCycle s.clock.up (s.getN Obj.scrSeqNext 0) then l else []

/-- The value that the first entry of a cycle took, where the cycle has had `n` entries (R460). -/
def State.cycleBase (s : State) (n : Nat) : Word := BitVec.ofNat 32 (s.getN Obj.scrSeqNext 0) - BitVec.ofNat 32 n

/-- The entries of the present cycle whose codes are greater than that of an event that joins them move one value on (R460). `base` is the first value
of the cycle, `k` the place of the new event in it, `n` the entries that it had. -/
def Scribe.makeRoom (x : Scribe) (base : Word) (k n : Nat) : Scribe :=
  if n ≤ k then x
  else
    let move (e : Event) : Event := if k ≤ (e.seq - base).toNat ∧ (e.seq - base).toNat < n then { e with seq := e.seq + 1 } else e
    { x with
      general := x.general.map move, first := x.first.map fun e => (e.1, e.2.map move), last := x.last.map fun e => (e.1, e.2.map move) }

/-- The event takes its sequence, the next, or among those of its CTRL cycle, whose codes are `old`, the one that its code has in ascending order; it
carries its code's pending count, and is kept in its area (R460 to R462). -/
def State.keepEvent (s : State) (old : List Nat) (code : Nat) (args : List Nat) : State :=
  let next := s.getN Obj.scrSeqNext 0
  let n := old.length
  let k := (old.filter (· ≤ code)).length
  let base := s.cycleBase n
  let seq := base + BitVec.ofNat 32 k
  let e : Event :=
    { seq, stamp := s.stamp, code := BitVec.ofNat 16 code,
      boot := BitVec.ofNat 16 (s.getN Obj.scrBoots 0),
      supp := BitVec.ofNat 16 (min (look 0 s.scribe.pending code) 0xFFFF), args := args.map (BitVec.ofNat 32) }
  let later (d : Event) : Bool := decide (k < (d.seq - base).toNat) && decide ((d.seq - base).toNat ≤ n)
  let x := { s.scribe.makeRoom base k n with
    pending := put 0 s.scribe.pending code 0, cycle := s.clock.up, posted := old ++ [code] }
  let x := if code < 0x1000 then { x with general := placeIn later x.general e } else x.keep (code / 0x1000) (isMark code) later e
  { s with scribe := x }.setN Obj.scrSeqNext 0 ((next + 1) % 2 ^ 32)

/-- The entry that a full general area has taken too early: the last, where it is of the same CTRL cycle, whose codes are `old`, as an event with a
lower code (R460, R462). -/
def State.displaced (s : State) (old : List Nat) (code : Nat) : Option Event :=
  match s.scribe.general.getLast? with
  | some e => if (e.seq - s.cycleBase old.length).toNat < old.length ∧ code < e.code.toNat then some e else none
  | none => none

/-- The last entry of the general area is refused after all, as the order of its cycle has it: it takes no sequence, its code's pending count is kept,
and it is counted in SCR_GEN_LOST (R460, R462; log 11). -/
def State.displace (s : State) (old : List Nat) (e : Event) : State :=
  let base := s.cycleBase old.length
  let move (d : Event) : Event :=
    if (e.seq - base).toNat < (d.seq - base).toNat ∧ (d.seq - base).toNat < old.length then { d with seq := d.seq - 1 } else d
  let x := s.scribe
  let code := e.code.toNat
  let x := { x with
    general := x.general.dropLast, first := x.first.map fun f => (f.1, f.2.map move), last := x.last.map fun f => (f.1, f.2.map move)
    pending := put 0 x.pending code (look 0 x.pending code + e.supp.toNat) }
  ({ s with scribe := x }.setN Obj.scrSeqNext 0 ((s.getN Obj.scrSeqNext 0 + 2 ^ 32 - 1) % 2 ^ 32)).count Obj.scrGenLost 0

/-- An event is kept in its area, and its NOTICE goes to the log rings (R382). -/
def State.enterEvent (s : State) (part : Option Nat) (old : List Nat) (code : Nat) (args : List Nat) : State :=
  (noticePorts s part).foldl (logTo 31 code args) (s.keepEvent old code args)

/-- An event that has its token: the full general area refuses it, or the greatest code of its cycle where that has taken the last place; otherwise it
is kept (R460, R462). -/
def State.takeEvent (s : State) (part : Option Nat) (code : Nat) (args : List Nat) : State :=
  let old := s.postedNow
  if code < 0x1000 ∧ 4096 ≤ s.scribe.general.length then
    match s.displaced old code with
    | some e => (s.displace old e).enterEvent part (old.erase e.code.toNat) code args
    | none => s.count Obj.scrGenLost 0
  else s.enterEvent part old code args

/-- The Scribe records an event: it takes a token or is suppressed (R464). `part` is the partition it concerns. -/
def State.recordFor (s : State) (part : Option Nat) (code : Nat) (args : List Nat) : State :=
  let k := s.tokens code
  if !unlimited code ∧ k = 0 then
    { s with scribe := { s.scribe with pending := put 0 s.scribe.pending code (look 0 s.scribe.pending code + 1) } }.count
      Obj.scrSuppressed 0 64
  else
    (if unlimited code then s else s.setTokens code (k - 1)).takeEvent part code args

/-- The Scribe records an event of the module as a whole. -/
def State.record (s : State) (code : Nat) (args : List Nat) : State := s.recordFor none code args

/-- The kinds of events that the spec has the Scribe record without a code in R465's table: their numbers in
`Config.scribeCode` (log 22). -/
inductive Unlisted where
  | joistCopy | recordCopy | grammarBad | edgeTagged | retrainChannel | crossing | sensorSilent | imageStart
  | recovery | writesLost | hung | duplicateAddress | portRate
  deriving DecidableEq, Repr

/-- The unlisted kinds, in their order. -/
def Unlisted.all : List Unlisted :=
  [.joistCopy, .recordCopy, .grammarBad, .edgeTagged, .retrainChannel, .crossing, .sensorSilent, .imageStart, .recovery, .writesLost, .hung,
    .duplicateAddress, .portRate]

/-- The events that R465 lists: code, name and argument count; STAMP_MARK under each of its codes. -/
def listed : List (Nat × String × Nat) :=
  [(0x0010, "STEP_FAULT", 3), (0x0020, "SRAM_CE", 3), (0x0021, "MEM_CE", 3), (0x0022, "MEM_UE", 4), (0x0023, "REPAIR_CANDIDATE", 3),
    (0x0030, "LINK_RETRAIN", 3), (0x0031, "LINK_FAR_CHANGE", 3), (0x0040, "RAISE_FAIL", 2), (0x0041, "LAYOUT_FAIL", 2),
    (0x0042, "SOFT_SPARE_IGNORED", 3), (0x0043, "STRAP_FAULT", 2), (0x0050, "DOORBELL_RANGE", 4), (0x0051, "LOG_START_REJECTED", 3),
    (0x0060, "CLK_HOLDOVER", 1), (0x0061, "CLK_TIME_LOST", 3)] ++
  [(0x1001, "STAMP_MARK", 2), (0x2001, "STAMP_MARK", 2), (0x3001, "STAMP_MARK", 2), (0x4001, "STAMP_MARK", 2)] ++
  [(0x1010, "SESSION_LOCK", 1), (0x1011, "ROOT_CHANGED", 2), (0x1012, "IMAGE_FALLBACK", 3), (0x1013, "MOVED", 2), (0x1014, "INDEX", 1),
    (0x1020, "SCR_CLEARED", 3), (0x2000, "START", 4), (0x2010, "MGMT_RESTART", 2), (0x2011, "WARM_RESET", 1), (0x2012, "PART_RESET", 3),
    (0x2013, "HOST_LOST", 2), (0x2014, "DEPART", 1), (0x3010, "STAGE", 3), (0x3011, "BRACE", 1), (0x3012, "CAP_UNMET", 2),
    (0x4010, "FLOW_LOW", 1), (0x4011, "COOL_STOP", 1), (0x4012, "SENSOR_DISAGREE", 3), (0x4013, "SENSOR_DISCARD", 3), (0x4014, "TRIP", 2)]

/-- The first code from `c` on, of the five channels in turn, that no other kind has and that is no STAMP_MARK's, within `n` tries (R461, R465). -/
def freeCode (used : List Nat) : Nat → Nat → Nat
  | 0, c => c
  | n + 1, c => if used.contains c ∨ c % 0x1000 = 1 then freeCode used n ((c + 1) % 0x5000) else c

/-- The codes of the unlisted kinds, in the kinds' order: each kind has one of its own, which nothing else fixes (R465; log 22). -/
def unlistedCodes : List Nat :=
  (List.range 13).foldl (fun l i => l ++ [freeCode (listed.map (·.1) ++ l) 100 ((Config.scribeCode i).toNat % 0x5000)]) []

/-- The code of an unlisted kind of event (R465; log 22). -/
def Unlisted.code (u : Unlisted) : Nat := unlistedCodes.getD u.ctorIdx 0

/-- How many arguments of an unlisted kind the spec states: the build identifier of an image that starts (R371), and the number of writes that a
fall-back has lost (R387). -/
def Unlisted.stated : Unlisted → Nat
  | .imageStart => 2
  | .writesLost => 1
  | _ => 0

/-- The argument count of an unlisted kind of event: those that the spec states, and as many more as there may be (R465; log 22). -/
def Unlisted.argCount (u : Unlisted) : Nat := u.stated + Config.eventArgs u.ctorIdx % (5 - u.stated)

/-- The Scribe records an unlisted event, with the details that its arguments are made from: first those that the spec states (R371, R387; log 22). -/
def State.note (s : State) (part : Option Nat) (u : Unlisted) (details : List Nat) : State :=
  let xs := Config.scribeArgs u.ctorIdx details
  s.recordFor part u.code (details.take u.stated ++ (List.range (u.argCount - u.stated)).map fun i => xs.getD i 0)

end Sys2Proof.Machine
end

