-- ==== Sys2Proof/Machine/Issue.lean ====
section
/-! DEFINITION. A core issues an instruction: registers (R84), guard (R100), the program counter and loops (R101, R127),
faults (R108, R121, R122) and the shared course of every core command. -/

namespace Sys2Proof.Machine

/-! ## Registers (R84) -/

/-- A g register; g0 reads zero. -/
def Core.getG (k : Core) (r : BitVec 5) : Word := if r = 0 then 0 else look 0 k.g r.toNat
/-- A g register written; a write to g0 is discarded. -/
def Core.setG (k : Core) (r : BitVec 5) (v : Word) : Core :=
  if r = 0 then k else { k with g := put 0 k.g r.toNat v }
/-- A predicate; p0 reads true. -/
def Core.getP (k : Core) (r : Nat) : Bool := if r = 0 then true else look false k.p r
/-- A predicate written; a write to p0 is discarded. -/
def Core.setP (k : Core) (r : Nat) (v : Bool) : Core := if r = 0 then k else { k with p := put false k.p r v }
/-- A lane of a v register. -/
def Core.lane (k : Core) (r : BitVec 5) (i : Nat) : Word := look 0 k.v (32 * r.toNat + i)
/-- The 32 lanes of a v register. -/
def Core.getV (k : Core) (r : BitVec 5) : List Word := readMany 0 k.v (32 * r.toNat) 32
/-- A v register written whole. -/
def Core.setV (k : Core) (r : BitVec 5) (xs : List Word) : Core := { k with v := blit 0 k.v (32 * r.toNat) xs }
/-- Entry (i, j) of an accumulator tile. -/
def Core.entry (k : Core) (t i j : Nat) : Entry := look {} k.acc (256 * t + 16 * i + j)
/-- The guard of an instruction (R100). -/
def Core.guarded (k : Core) (f : Fields) : Bool := k.getP f.pr.toNat != f.pn

/-! ## Faults (R108) -/

/-- The fault codes (R108). -/
def illegalInstruction : Byte := 0x01
def addressRange : Byte := 0x02
def misaligned : Byte := 0x03
def imemOverrun : Byte := 0x04
def loopDepth : Byte := 0x05
def loopStructure : Byte := 0x06
def barrierMismatch : Byte := 0x07
def streamState : Byte := 0x08
def dataError : Byte := 0x09
def trapFault : Byte := 0x0A
def transferError : Byte := 0x0B

/-- A core that stops with a fault at instruction `pc`; `aux` is a TRAP's code or a transfer's status (R108, R121). -/
def Core.fault (k : Core) (code : Byte) (pc : Nat) (aux : Half) : Core :=
  { k with run := .faulted code, faultPc := pc, faultAux := aux, xferErr := none }

/-- The lowest fault code among conditions that hold (R121). -/
def lowest : List (Bool × Byte) → Option Byte
  | [] => none
  | (true, c) :: xs =>
    match lowest xs with
    | some d => some (if d < c then d else c)
    | none => some c
  | (false, _) :: xs => lowest xs

/-! ## The program counter and loops (R101, R127) -/

/-- After the instruction at `stop`: each loop that ends there, innermost first, takes its back edge if its remaining count
exceeds 1 and is popped otherwise; past the last, the next instruction (R127). -/
def backEdge (stop : Nat) : List Loop → List Loop × Nat
  | [] => ([], stop + 1)
  | l :: ls =>
    if l.stop = stop then
      if 1 < l.count then ({ l with count := l.count - 1 } :: ls, l.start)
      else backEdge stop ls
    else (l :: ls, stop + 1)

/-- A core past the instruction at its PC. -/
def Core.next (k : Core) : Core :=
  let (ls, pc) := backEdge k.pc k.loops
  { k with loops := ls, pc }

/-! ## Errors of a core's memories (R31, R91, R108, R109) -/

/-- The disabled site of a core row: its used fuse field, else its soft entry, else site 16 (R30, R31, R354). -/
def State.spareSite (s : State) (r : Nat) : Nat :=
  let d := look 31 s.fuses.spare r
  if d ≠ 31 then d
  else match s.raising.soft.find? fun e => e.1 == 1 && e.2.1.toNat == r with
    | some e => e.2.2.toNat
    | none => 16

/-- The physical site of a core, 136 × bay + 17 × row + site: enabled column c lies at site c below the disabled site and at c + 1 from it
on (R31, R353, R369). -/
def State.siteOf (s : State) (c : Nat) : Nat :=
  17 * rowOf c + (if c % 16 < s.spareSite (rowOf c) then c % 16 else c % 16 + 1)

/-- Numbers that a list does not hold yet, put before it. -/
def addNew (xs ys : List Nat) : List Nat := (xs.filter fun x => !ys.contains x) ++ ys

/-- A slot with uncorrectable words. -/
def Slot.strike (x : Slot) (ws : List Nat) : Slot := { x with badWords := addNew ws x.badWords }

/-- The error codes of core `c`'s memories find errors: the uncorrectable words stay so until they are written whole, and the Scribe counts
each correctable error under its core's site, and each of the bay's buffer under the bay (R91, R108, R109, R465; the bay's number, log 13). -/
def State.strike (s : State) (c : Nat) (e : Sram) : State :=
  if e = {} then s
  else
    let k := s.core c
    let words (n : Nat) : List Nat := (e.slots.filter (·.1 == n)).map (·.2)
    let s := s.setCore c { k with
      badWords := addNew e.scratch k.badWords, badImem := addNew e.imem k.badImem, badTables := addNew e.tables k.badTables
      slot0 := k.slot0.strike (words 0), slot1 := k.slot1.strike (words 1) }
    let s := e.corrected.foldl (fun s (array, row) => s.record 0x0020 [s.siteOf c, array, row]) s
    e.buffer.foldl (fun s (bank, row) => s.record 0x0020 [bayOf c, bank, row]) s

/-! ## Scratchpad accesses (R91, R93, R126) -/

/-- The size of a scratchpad (R84). -/
def scratchSize : Nat := 0x1_8000

/-- The 16-byte words that bytes `a` to `a + n − 1` touch (R91). -/
def wordsIn (a n : Nat) : List Nat := (List.range ((a + n + 15) / 16 - a / 16)).map (a / 16 + ·)

/-- The faults of a scalar access of `n` bytes at `a`: the rule bounds the address alone (R126), and an aligned access whose address lies in the
scratchpad does not leave it. -/
def Core.scalarFault (k : Core) (a n : Nat) : Option Byte :=
  lowest [(decide (scratchSize ≤ a), addressRange), (a % n != 0, misaligned), ((wordsIn a n).any k.badWords.contains, dataError)]

/-- The faults of reading `n` bytes at `a` aligned to `al` (R121). -/
def Core.readFault (k : Core) (a n al : Nat) : Option Byte :=
  lowest [(decide (scratchSize < a + n), addressRange), (a % al != 0, misaligned),
    ((wordsIn a n).any k.badWords.contains, dataError)]

/-- The 16-byte words that bytes `a` to `a + n − 1` touch without covering whole. -/
def partialWords (a n : Nat) : List Nat :=
  (wordsIn a n).filter fun w => 16 * w < a || a + n < 16 * w + 16

/-- Bytes stored in a scratchpad; a word written whole gets fresh check bits (R91), and what lay under an earlier drain there is gone (R136). -/
def Core.store (k : Core) (a : Nat) (bs : Bytes) : Core :=
  { k with
    scratch := writeBytes k.scratch a bs
    written := if k.written.contains (a, bs.length) then k.written else (a, bs.length) :: k.written
    under := wipe k.under a bs.length
    badWords := k.badWords.filter fun w => !(decide (a ≤ 16 * w) && decide (16 * w + 16 ≤ a + bs.length)) }

/-- A scalar or vector store to some ranges, with the entries that wait in the tensor queue before it (R89, R136). -/
def Core.overtake (k : Core) (rs : List (Nat × Nat)) : Core :=
  if k.tq.isEmpty then k else { k with later := rs.map (fun r => (r.1, r.2, k.tq.length)) ++ k.later }

/-! ## Issue -/

/-- What an instruction does at issue: it stalls, faults, or is done, with the cycles it holds the issue slot. -/
inductive Issued where
  | stall
  | fault (code : Byte) (aux : Half)
  | done (k : Core) (cost : Nat)

/-- An instruction that is done, and the next one follows. -/
def Issued.step (k : Core) (cost : Nat := 1) : Issued := .done k.next cost

/-- An instruction's fault where there is one, else what it does. -/
def Issued.unless (e : Option Byte) (x : Issued) : Issued :=
  match e with
  | some c => .fault c 0
  | none => x

/-- The instruction that core `c` is to issue next: a fault, or an instruction with its fields (R107, R108, R122). A transfer's error comes
before what the fetch finds (DESIGN CHOICE, log 118). -/
def fetch (s : State) (c : Nat) : Sum (Byte × Half) (Op × Fields) :=
  let k := s.core c
  let r := s.row (rowOf c)
  match k.xferErr with
  | some st => .inl (transferError, st.setWidth 16)
  | none =>
    if r.progLen ≤ k.pc then .inl (imemOverrun, 0)
    else if k.badImem.contains k.pc then .inl (dataError, 0)
    else match decodeWord (look 0 r.imem k.pc) with
      | some x => .inr x
      | none => .inl (illegalInstruction, 0)

/-- The state in which core `c` has issued: its cycle count advances by the cycles of the issue slot and by the cycles that
it stalled, which the model leaves free (R86, R87, log 5). -/
def charge (s : State) (c : Nat) (k : Core) (cost : Nat) : State :=
  { s.setCore c { k with cycles := k.cycles + BitVec.ofNat 64 cost + Config.stallCycles s.free } with free := s.free + 1 }

/-- The content of a transfer descriptor that R139 calls illegal: a nonzero reserved field, or a completion value of 0xFFFF_0000 or above. -/
def descriptorIllegal (d : Bytes) : Bool :=
  let reserved (a : Nat) : Bool := bits a 48 15 != 0
  reserved (field d 0 8) || reserved (field d 8 8) || decide (0xFFFF_0000 ≤ field d 0x18 4) || field d 0x1C 2 / 2 != 0 || field d 0x1E 2 != 0

/-- Whether what an instruction's registers name is illegal, which the core checks whatever the guard: a TMMA's gb[31:14], and a MOVD's descriptor
where it can be read (R100, R133, R139; log 119, log 121). -/
def Core.illegal (k : Core) (o : Op) (f : Fields) : Bool :=
  match o with
  | .tmma | .tmmac => bits (k.getG f.b).toNat 14 18 != 0
  | .movd => let a := (k.getG f.a).toNat; (k.readFault a 32 16).isNone && descriptorIllegal (readBytes k.scratch a 32)
  | _ => false

/-- Core `c` issues its next instruction, where that is `o` with fields `f`. A core that does not run issues nothing, and
another instruction's command is no event. A pending transfer error, the end of the program and an illegal word fault
whatever the command names. A false guard takes its cycle and has no effect, but that an illegal instruction faults (R100). `body` is what the instruction does on
its core, `after` what it does beyond it. -/
def issue (o : Op) (c : Fin 8192) (f : Fields) (s : State) (body : Core → Issued) (after : State → State := id) :
    State :=
  let k := s.core c
  if k.run ≠ .running then s
  else match fetch s c with
    | .inl (code, aux) => s.setCore c (k.fault code k.pc aux)
    | .inr (o', f') =>
      if o' ≠ o ∨ f' ≠ f then s
      else if !k.guarded f then
        if k.illegal o f then s.setCore c (k.fault illegalInstruction k.pc 0) else charge s c k.next 1
      else match body k with
        | .stall => s
        | .fault code aux => s.setCore c (k.fault code k.pc aux)
        | .done k' cost => after (charge s c k' cost)

end Sys2Proof.Machine
end

