-- ==== Sys2Proof/Machine/Memory.lean ====
section
/-! DEFINITION. Main memory and the partition-relative view: placement (R177 to R179), uncorrectable bursts (R174, R200),
address checks (R45 to R49, R155), context pages (R187 to R191), and the accesses that movers, hosts, links and commands
make. -/

namespace Sys2Proof.Machine

/-- The highest shedding stage in force (R436); the actions of the stages below it are in force with it. -/
def State.stage (s : State) : Nat := s.getN Obj.pwrStage 0

/-- Whether main memory is in self-refresh and requests are fenced: the actions of stage 5 as the firmware has taken them, which a restart of
the management core delays (R437, R442, R444). -/
def State.resting (s : State) : Bool := s.power.resting

/-- Whether the input calls for stage 5's actions: stage 5, or an input above 60 V (R442, R444). -/
def State.dark (s : State) : Bool := decide (5 ≤ s.stage) || s.power.overvolt

/-- The service in force: RS_SERVICE, or, while a restart whose held store failed waits for LOAD_FW, the service that goes on (R358, R377). -/
def State.service (s : State) : Nat := s.fw.service.getD (s.getR 0 Reg.rsService)

/-- Controllers in service: 24 in READY, 12 in REDUCED service, none before (R171, R183). -/
def State.served (s : State) : Nat :=
  match s.service with
  | 3 => 24
  | 2 => 12
  | _ => 0

/-- A GiB. -/
def gib : Nat := 2 ^ 30
/-- A context page, 64 KiB. -/
def pageSize : Nat := 2 ^ 16

/-! ## The absolute view (R45, R46) -/

/-- The main memory that the spec gives the module: 1,440 GiB (R45). -/
def memSize : Nat := 1440 * gib

/-- Where an absolute address leads: main memory, a core's window, a bay buffer, or control registers (R45, R46). -/
inductive Region where
  | memory (a : Nat)
  | window (core off : Nat)
  | buffer (bay off : Nat)
  | control (off : Nat)
  deriving DecidableEq, Repr

/-- The region of an absolute address; none where R45 lists no range, which ends the access with ADDRESS_RANGE (R45, R46). -/
def region (a : Nat) : Option Region :=
  if a < memSize then some (.memory a)
  else if 0x200_0000_0000 ≤ a ∧ a < 0x200_4000_0000 then
    some (.window ((a - 0x200_0000_0000) / 0x2_0000) ((a - 0x200_0000_0000) % 0x2_0000))
  else if 0x201_0000_0000 ≤ a ∧ a < 0x201_0400_0000 then
    some (.buffer ((a - 0x201_0000_0000) / 0x10_0000) ((a - 0x201_0000_0000) % 0x10_0000))
  else if 0x300_0000_0000 ≤ a ∧ a < 0x301_0000_0000 then some (.control (a - 0x300_0000_0000))
  else none

/-! ## Statuses of transfers and commands (R140, R312) -/

/-- OK. -/
def stOk : Byte := 0x00
/-- ADDRESS_RANGE. -/
def stRange : Byte := 0x02
/-- NO_ROUTE. -/
def stNoRoute : Byte := 0x03
/-- DATA_ERROR. -/
def stData : Byte := 0x04
/-- TIMEOUT. -/
def stTimeout : Byte := 0x05
/-- FENCED. -/
def stFenced : Byte := 0x06

/-! ## Placement (R177 to R179) -/

/-- The mode of a half-tier: 0 home, 1 striped over its own set, 2 the whole tier striped over AB (R177). -/
def State.tierMode (s : State) (t h : Nat) : Nat := look 0 s.tiers (2 * t + h)

/-- The package and the package offset of an absolute main-memory address (R178). -/
def placeOf (s : State) (a : Nat) : Nat × Nat :=
  let t := a / (24 * gib)
  let h := a % (24 * gib) / (12 * gib)
  let striped (start first m : Nat) : Nat × Nat :=
    let u := a - start
    let g := u / 4096
    (first + g % m, t * gib + g / m * 4096 + u % 4096)
  match s.tierMode t h with
  | 0 => ((a - 24 * t * gib) / gib, t * gib + a % gib)
  | 1 => striped ((24 * t + 12 * h) * gib) (12 * h) 12
  | _ => striped (24 * t * gib) 0 24

/-- The channel of a package offset, and its channel data offset (R179). -/
def channelOf (o : Nat) : Nat × Nat := (bits o 9 3, o / 4096 * 512 + o % 512)

/-- The DRAM row of a channel data offset: 30 bursts of 64 bytes to a row (R173, log 32). -/
def dramRow (o : Nat) : Nat := (channelOf o).2 / 1920

/-! ## Errors (R174 to R176, R200) -/

/-- A row becomes a repair candidate, once (R176). -/
def addCandidate (s : State) (ctl ch row : Nat) : State :=
  let x := (8 * ctl + ch, row)
  if s.raising.repairs.contains x then s
  else
    let s := { s with raising := { s.raising with repairs := s.raising.repairs ++ [x] } }
    (s.setN Obj.memRepairPending 0 s.raising.repairs.length).record 0x0023 [ctl, ch, row]

/-- A read met the uncorrectable burst at `a`: it is counted and recorded, and its row becomes a candidate (R176, R200). -/
def noteUncorrectable (reader : Nat) (s : State) (a : Nat) : State :=
  let (ctl, o) := placeOf s a
  let (ch, _) := channelOf o
  let s := (s.count Obj.mcUeCount (ctl + 1)).record 0x0022 [ctl, ch, o / 64, reader]
  addCandidate s ctl ch (dramRow o)

/-- A read corrected an error in the burst at `a`: it is counted and recorded; a second burst of the row within 24 hours
makes it a candidate (R174, R176). -/
def noteCorrected (s : State) (a : Nat) : State :=
  let (ctl, o) := placeOf s a
  let (ch, _) := channelOf o
  let s := (s.count Obj.mcCeCount (ctl + 1)).record 0x0021 [ctl, ch, o / 64]
  let day : Nat := 86_400_000_000_000
  let m := s.mc ctl
  let again := m.ceRows.any fun (b, t) =>
    b != o / 64 && (channelOf (b * 64)).1 == ch && dramRow (b * 64) == dramRow o && decide (s.uptime ≤ t.toNat + day)
  let s := s.setMc ctl { m with ceRows := (o / 64, s.clock.up) :: m.ceRows.filter fun (b, _) => b != o / 64 }
  if again then addCandidate s ctl ch (dramRow o) else s

/-- The 64-byte bursts that bytes `a` to `a + n − 1` touch, by number. -/
def burstsIn (a n : Nat) : List Nat := (List.range ((a + n + 63) / 64 - a / 64)).map (a / 64 + ·)

/-- An access into a domain whose clock is stopped ends, with TIMEOUT or, the management core's, with a bus error; it is counted and has no effect, and
the firmware records its own (R476). -/
def crossStopped (firmware : Bool) (s : State) : State :=
  let s := (s.count Obj.clkXingTo 0).send (.crossed (if firmware then none else some stTimeout))
  if firmware then s.note none .crossing [] else s

/-- A burst is uncorrectable from now on (R174, R200). -/
def markBad (s : State) (b : Nat) : State := { s with bad := if s.bad.contains b then s.bad else s.bad ++ [b] }

/-- Whether a channel that is being retrained holds a burst of a range of main memory: its reads and writes wait (R166, R366). -/
def retraining (s : State) (a n : Nat) : Bool :=
  match s.raising.retrain with
  | some (0x21, u, _) => (burstsIn a n).any fun b =>
      let (c, o) := placeOf s (64 * b)
      8 * c + (channelOf o).1 == u
  | _ => false

/-- Whether a range touches a channel whose retrain failed: requests to it end with DATA_ERROR (R366). -/
def onFailedChannel (s : State) (a n : Nat) : Bool :=
  !s.raising.failedCh.isEmpty && (burstsIn a n).any fun b =>
    let (ctl, o) := placeOf s (64 * b)
    s.raising.failedCh.contains (8 * ctl + (channelOf o).1)

/-- A read of main memory: DATA_ERROR where it meets an uncorrectable burst, each one noted (R200), or a channel whose
retrain failed (R366). -/
def readMem (reader : Nat) (s : State) (a n : Nat) : State × Byte × Bytes :=
  if onFailedChannel s a n then (s, stData, zeroBytes n)
  else match s.bad.filter fun b => decide (a / 64 ≤ b) && decide (64 * b < a + n) with
  | [] => (s, stOk, readBytes s.mem a n)
  | bs => (bs.foldl (fun s b => noteUncorrectable reader s (64 * b)) s, stData, zeroBytes n)

/-- Bytes of main memory stored without a check: whole bursts get fresh check words (R174). -/
def storeMem (s : State) (a : Nat) (bs : Bytes) : State :=
  { s with
    mem := writeBytes s.mem a bs
    bad := s.bad.filter fun b => !(decide (a ≤ 64 * b) && decide (64 * b + 64 ≤ a + bs.length)) }

/-- A write of main memory, burst by burst: one that covers an uncorrectable burst in part is not performed and ends with
DATA_ERROR (R174). -/
def writeMem (s : State) (a : Nat) (bs : Bytes) : State × Byte :=
  if onFailedChannel s a bs.length then (s, stData)
  else match s.bad.filter fun b => decide (a / 64 ≤ b) && decide (64 * b < a + bs.length) &&
      !(decide (a ≤ 64 * b) && decide (64 * b + 64 ≤ a + bs.length)) with
  | [] => (storeMem s a bs, stOk)
  | bad =>
    let s := bad.foldl (fun s b => noteUncorrectable 7 s (64 * b)) s
    let kept := (burstsIn a bs.length).filter fun b => !bad.contains b
    (kept.foldl (fun s b =>
      let lo := max a (64 * b)
      let hi := min (a + bs.length) (64 * b + 64)
      storeMem s lo (sub bs (lo - a) (hi - lo))) s, stData)

/-- Zeros written over `n` bytes, with fresh check words (R172, R202). -/
def scrubMem (s : State) (a n : Nat) : State :=
  { s with mem := wipe s.mem a n, bad := s.bad.filter fun b => 64 * b < a || a + n ≤ 64 * b }

/-! ## The partition-relative view (R47 to R49, R181) -/

/-- The physical bay rows that a mask names, in ascending order (R47, R303). -/
def rowsOfMask (m : Nat) : List Nat := (List.range 8).filter (bit m ·)
/-- The physical bay rows of a partition. -/
def State.rowsOf (s : State) (p : Nat) : List Nat := rowsOfMask (s.getN Obj.partRows (p + 1))
/-- A partition's quota Q in GiB. -/
def State.quota (s : State) (p : Nat) : Nat := s.getN Obj.partQuota (p + 1)
/-- A partition's plain size P in GiB (R181). -/
def State.plain (s : State) (p : Nat) : Nat := s.quota p - s.getN Obj.partPool (p + 1)

/-- Where a partition-relative address leads. -/
inductive Target where
  /-- main memory, at an absolute address -/
  | mem (a : Nat)
  /-- the context span: its page, and the offset in it -/
  | span (page off : Nat)
  /-- a core's scratchpad -/
  | scratch (core off : Nat)
  /-- a bay buffer below its stream area -/
  | buffer (bay off : Nat)
  deriving DecidableEq, Repr

/-- Where an address leads in a partition's view; none fails the check of R48, or is an infeed slot or instruction memory
(R28), or lies in a bay's stream area (R155). -/
def resolve (s : State) (p addr : Nat) : Option Target :=
  if addr < s.plain p * gib then
    match (s.part p).extents[addr / gib]? with
    | some e => some (.mem (e * gib + addr % gib))
    | none => none
  else if addr < s.quota p * gib then
    some (.span ((addr - s.plain p * gib) / pageSize) (addr % pageSize))
  else if 0x200_0000_0000 ≤ addr ∧ addr < 0x200_4000_0000 then
    let rel := addr - 0x200_0000_0000
    match (s.rowsOf p)[rel / 0x800_0000]? with
    | some y =>
      if rel % 0x2_0000 < scratchSize then
        some (.scratch (128 * (8 * y + rel / 0x100_0000 % 8) + rel / 0x2_0000 % 128) (rel % 0x2_0000))
      else none
    | none => none
  else if 0x201_0000_0000 ≤ addr ∧ addr < 0x201_0400_0000 then
    let rel := addr - 0x201_0000_0000
    match (s.rowsOf p)[rel / 0x80_0000]? with
    | some y =>
      if rel % 0x10_0000 < 0x8_0000 then some (.buffer (8 * y + rel / 0x10_0000 % 8) (rel % 0x10_0000)) else none
    | none => none
  else none

/-- Bytes `a` to `a + n − 1` cut at multiples of 4 KiB, where no piece leaves its region. -/
def pieces4K (a n : Nat) : List (Nat × Nat) :=
  (List.range ((a + n + 4095) / 4096 - a / 4096)).map fun i =>
    let lo := max a ((a / 4096 + i) * 4096)
    (lo, min (a + n) ((a / 4096 + i + 1) * 4096) - lo)

/-- Whether every byte of a range passes the checks that `ok` makes of where it leads. -/
def rangeOk (s : State) (p a n : Nat) (ok : Target → Bool) : Bool :=
  (pieces4K a n).all fun (lo, _) =>
    match resolve s p lo with
    | some t => ok t
    | none => false

/-! ## Context pages (R187 to R192) -/

/-- The frame of a logical page, where it is mapped. -/
def Ctx.frame (x : Ctx) (page : Nat) : Option Nat :=
  match look 0 x.pages page with
  | 0 => none
  | f + 1 => some f

/-- The context of a partition that is bound to a slot (R187, R318). -/
def State.boundTo (s : State) (p slot : Nat) : Option Nat :=
  (List.range 4096).find? fun x => (s.ctx x).part = p && (s.ctx x).slot = some slot && (s.ctx x).state ≠ .free

/-- The controller of a pool frame: pool extents are home extents (R183). -/
def frameCtl (f : Nat) : Nat := f / 16384 % 24

/-- The next frame of a ring in rotation from controller `c` on, not on controller `avoid` (24 for none): the first of the first controller
that has one (R183). -/
def nextFrame (ring : List Nat) (c avoid : Nat) : Option Nat :=
  (List.range 24).findSome? fun i =>
    let n := (c + i) % 24
    if n = avoid then none else ring.find? fun f => frameCtl f == n

/-- `n` frames taken from a ring in rotation, and the ring and the rotation after them; of two or more, the first two, which are the copies of
one thing, lie on different controllers (R183, R190, R191; log 126). -/
def handOut : Nat → Nat → List Nat → Nat → Option (List Nat × List Nat × Nat)
  | 0, _, ring, c => some ([], ring, c)
  | n + 1, avoid, ring, c =>
    match nextFrame ring c avoid with
    | none => none
    | some f =>
      match handOut n (if avoid = 24 ∧ 1 ≤ n then frameCtl f else 25) (ring.erase f) ((frameCtl f + 1) % 24) with
      | some (fs, ring, c) => some (f :: fs, ring, c)
      | none => none

/-- Frames taken from the partition's free ring, with its counts (R183, R191, R198). -/
def takeFrames (s : State) (p n : Nat) : Option (List Nat × State) :=
  let y := s.part p
  match handOut n 24 y.ring y.rotor with
  | none => none
  | some (fs, ring, rotor) =>
    let s := s.setPart p { y with ring, rotor }
    some (fs, (s.setN Obj.partFramesFree (p + 1) ring.length).setN Obj.partFramesUsed (p + 1)
      (s.getN Obj.partFramesUsed (p + 1) + n))

/-- A joist entry of a mapped page: valid, and its frame number in bits 24 to 0 (R190). An unmapped page's entry is zero, as the keeper's frames
are zeroed before use (R202). -/
def joistWord (f : Nat) : Nat := 2 ^ 31 + f % 2 ^ 25

/-- The address of a page's entry in a frame that holds a copy of its joist page (R190). -/
def entryAt (frame page : Nat) : Nat := frame * pageSize + page % 16384 * 4

/-- The keeper writes both copies of a page's entry: writes of part of a burst, which an uncorrectable one refuses (R174, R191, R200). -/
def writeEntry (s : State) (x page f : Nat) : State :=
  let (a, b) := look (0, 0) (s.ctx x).joistPages (page / 16384)
  [a, b].foldl (fun s c => (writeMem s (entryAt c page) (leBytes 4 (joistWord f))).1) s

/-- The keeper maps an unmapped page: two frames for the joist page where it is not yet allocated, then one for the page, and both copies of its
entry are written; a ring that cannot supply every frame supplies none (R191). -/
def allocate (s : State) (p x page : Nat) : Option (Nat × State) :=
  let c := s.ctx x
  match c.frame page with
  | some f => some (f, s)
  | none =>
    let fresh := look (0, 0) c.joistPages (page / 16384) = (0, 0)
    match takeFrames s p (if fresh then 3 else 1) with
    | some ([a, b, f], s) =>
      some (f, writeEntry (s.setCtx x { c with
        joistPages := put (0, 0) c.joistPages (page / 16384) (a, b), pages := put 0 c.pages page (f + 1) }) x page f)
    | some ([f], s) => some (f, writeEntry (s.setCtx x { c with pages := put 0 c.pages page (f + 1) }) x page f)
    | _ => none

/-- What the span's page of a partition gives an access (R188): an error status, or its context and its logical page. -/
def spanPage (s : State) (p page : Nat) : Byte ⊕ (Nat × Nat) :=
  let w := s.getN Obj.partWinpages (p + 1)
  if s.getN Obj.partWindows (p + 1) * w ≤ page then .inl stRange
  else match s.boundTo p (page / w) with
    | none => .inl stRange
    | some x => if (s.ctx x).state = .faulted then .inl stData else .inr (x, page % w)

/-- A context is marked FAULTED (R110, R200); a FREE or CLOSING one is not. -/
def markFaulted (s : State) (x : Nat) : State :=
  match (s.ctx x).state with
  | .free | .closing => s
  | _ => s.setCtx x { s.ctx x with state := .faulted }

/-- A read of a context's page: zeros where it is unmapped; an uncorrectable burst faults the context (R188, R200). -/
def readPage (reader : Nat) (s : State) (x page off n : Nat) : State × Byte × Bytes :=
  match (s.ctx x).frame page with
  | none => (s, stOk, zeroBytes n)
  | some f =>
    let (s, st, bs) := readMem reader s (f * pageSize + off) n
    (if st = stOk then s else markFaulted s x, st, bs)

/-- The burst that holds a page's entry in the two copies of its joist page; none where the joist page is not allocated (R190, R194). -/
def entryBursts (s : State) (x page : Nat) : Option (Nat × Nat) :=
  let (a, b) := look (0, 0) (s.ctx x).joistPages (page / 16384)
  let burst (f : Nat) : Nat := entryAt f page / 64
  if (a, b) = (0, 0) then none else some (burst a, burst b)

/-- Whether a burst cannot be read: it is uncorrectable, or its channel's retrain failed (R200, R366). -/
def unreadable (s : State) (b : Nat) : Bool := s.bad.contains b || onFailedChannel s (64 * b) 64

/-- A read of the map met a burst: an uncorrectable one is noted (R200). -/
def noteMap (s : State) (b : Nat) : State := if s.bad.contains b then noteUncorrectable 3 s (64 * b) else s

/-- Whether both copies of the map entry of a context's page are unreadable, which faults the context; the reads are noted, and where the
other copy serves the Scribe records it (R191, R194, R200). -/
def mapFails (s : State) (x page : Nat) : State × Bool :=
  match entryBursts s x page with
  | none => (s, false)
  | some (a, b) =>
    if !unreadable s a then (s, false)
    else
      let s := noteMap s a
      if !unreadable s b then (s.note (some (s.ctx x).part) .joistCopy [x, page], false)
      else (markFaulted (noteMap s b) x, true)

/-- Whether neither copy of a page's entry can be read (R191, R200). -/
def mapLost (s : State) (x page : Nat) : Bool :=
  match entryBursts s x page with
  | some (a, b) => unreadable s a && unreadable s b
  | none => false

/-- An allocation request: the keeper reads an unmapped page's entry and maps the page. A status where both copies of the entry are unreadable, before
it or after, which faults the context, or where the ring has too few frames (R188, R191, R200). -/
def mapPage (s : State) (p x page : Nat) : State × (Byte ⊕ Nat) :=
  match (s.ctx x).frame page with
  | some f => (s, .inr f)
  | none =>
    match mapFails s x page with
    | (s, true) => (s, .inl stData)
    | (s, false) =>
      match allocate s p x page with
      | none => (s, .inl stRange)
      | some (f, s) => if mapLost s x page then (markFaulted s x, .inl stData) else (s, .inr f)

/-- A write of a context's page; an unmapped one takes a frame, once the keeper has read its entry (R188, R191). -/
def writePage (s : State) (p x page off : Nat) (bs : Bytes) : State × Byte :=
  match mapPage s p x page with
  | (s, .inl st) => (s, st)
  | (s, .inr f) =>
    let (s, st) := writeMem s (f * pageSize + off) bs
    (if st = stOk then s else markFaulted s x, st)

/-! ## Accesses through the view -/

/-- A read of a piece that lies within one region. -/
def readTarget (reader : Nat) (s : State) (p n : Nat) : Target → State × Byte × Bytes
  | .mem a => readMem reader s a n
  | .span page off =>
    match spanPage s p page with
    | .inl st => (s, st, zeroBytes n)
    | .inr (x, page) => readPage reader s x page off n
  | .scratch c off =>
    let k := s.core c
    if (wordsIn off n).any k.badWords.contains then (s, stData, zeroBytes n) else (s, stOk, readBytes k.scratch off n)
  | .buffer b off => (s, stOk, readBytes (s.bay b).buffer off n)

/-- A write of a piece that lies within one region; a scratchpad word written in part is a read-modify-write (R91). -/
def writeTarget (s : State) (p : Nat) (bs : Bytes) : Target → State × Byte
  | .mem a => writeMem s a bs
  | .span page off =>
    match spanPage s p page with
    | .inl st => (s, st)
    | .inr (x, page) => writePage s p x page off bs
  | .scratch c off =>
    let k := s.core c
    if (partialWords off bs.length).any k.badWords.contains then (s, stData) else (s.setCore c (k.store off bs), stOk)
  | .buffer b off => (s.setBay b { s.bay b with buffer := writeBytes (s.bay b).buffer off bs }, stOk)

/-- A read of the next piece of a range, where none before it failed: the bytes read so far, or the first error status. -/
def readPiece (reader p : Nat) (x : State × Byte × Bytes) (piece : Nat × Nat) : State × Byte × Bytes :=
  if x.2.1 ≠ stOk then x
  else match resolve x.1 p piece.1 with
    | none => (x.1, stRange, x.2.2)
    | some t =>
      let y := readTarget reader x.1 p piece.2 t
      (y.1, y.2.1, x.2.2 ++ y.2.2)

/-- A write of the next piece of a range of bytes at `a`, where none before it failed. -/
def writePiece (p a : Nat) (bs : Bytes) (x : State × Byte) (piece : Nat × Nat) : State × Byte :=
  if x.2 ≠ stOk then x
  else match resolve x.1 p piece.1 with
    | none => (x.1, stRange)
    | some t => writeTarget x.1 p (sub bs (piece.1 - a) piece.2) t

/-- A read of a range of a partition's view: the first error status, or the bytes (R48, R188, R200). -/
def readRange (reader : Nat) (s : State) (p a n : Nat) : State × Byte × Bytes :=
  (pieces4K a n).foldl (readPiece reader p) (s, stOk, [])

/-- A write of a range of a partition's view: pieces in order, up to the first error (R48, R188, R200). -/
def writeRange (s : State) (p a : Nat) (bs : Bytes) : State × Byte :=
  (pieces4K a bs.length).foldl (writePiece p a bs) (s, stOk)

/-- Whether a piece of a partition's view waits for a channel that is being retrained (R366). -/
def Target.waits (s : State) (p n : Nat) : Target → Bool
  | .mem a => retraining s a n
  | .span page off =>
    match spanPage s p page with
    | .inl _ => false
    | .inr (x, page) =>
      (match (s.ctx x).frame page with
      | some f => retraining s (f * pageSize + off) n
      | none => false) || (match entryBursts s x page with
      | some (a, _) => retraining s (64 * a) 64
      | none => false)
  | _ => false

/-- Whether a range of a partition's view waits for a channel that is being retrained (R366). -/
def rangeWaits (s : State) (p a n : Nat) : Bool :=
  s.raising.retrain.isSome && (pieces4K a n).any fun (lo, m) =>
    match resolve s p lo with
    | some t => t.waits s p m
    | none => false

/-! ## Plain memory of a partition -/

/-- Bytes of a partition's plain memory, errors apart. -/
def plainBytes (s : State) (p a n : Nat) : Bytes :=
  (pieces4K a n).flatMap fun (lo, m) =>
    match resolve s p lo with
    | some (.mem x) => readBytes s.mem x m
    | _ => zeroBytes m

/-- The absolute bursts that a range of a partition's plain memory touches. -/
def plainBursts (s : State) (p a n : Nat) : List Nat :=
  (pieces4K a n).flatMap fun (lo, m) =>
    match resolve s p lo with
    | some (.mem x) => burstsIn x m
    | _ => []

/-! ## Waiting for a channel that is being retrained (R366) -/

/-- Whether either copy of a page's map entry lies on a channel that is being retrained (R190, R366). -/
def entryWaits (s : State) (x page : Nat) : Bool :=
  match entryBursts s x page with
  | some (a, b) => retraining s (64 * a) 64 || retraining s (64 * b) 64
  | none => false

/-- Whether the keeper's mapping of an unmapped page waits: both copies of its entry are written, in a joist page that the mapping may take first
(R191, R366). -/
def mappingWaits (s : State) (p x page : Nat) : Bool :=
  ((s.ctx x).frame page).isNone && (entryWaits s x page || match allocate s p x page with
    | some (_, t) => entryWaits t x page
    | none => false)

/-- A write of `n` bytes of a context's page, after others of the same range, as the keeper would map the pages: whether one of them waits, for a
mapping or for the frame that its page takes (R191, R366). -/
def pieceWaits (p : Nat) (y : State × Bool) (piece : Nat × Nat × Nat × Nat) : State × Bool :=
  let (x, page, off, n) := piece
  match allocate y.1 p x page with
  | some (f, t) => (t, y.2 || mappingWaits y.1 p x page || retraining t (f * pageSize + off) n)
  | none => (y.1, y.2 || mappingWaits y.1 p x page)

/-- Whether writes of pieces of context pages wait: context, logical page, offset and length of each (R366). -/
def pagesWait (s : State) (p : Nat) (pieces : List (Nat × Nat × Nat × Nat)) : Bool :=
  s.raising.retrain.isSome && (pieces.foldl (pieceWaits p) (s, false)).2

/-- The pieces of context pages that a range of a partition's view touches. -/
def spanPieces (s : State) (p a n : Nat) : List (Nat × Nat × Nat × Nat) :=
  (pieces4K a n).filterMap fun (lo, m) =>
    match resolve s p lo with
    | some (.span page off) =>
      match spanPage s p page with
      | .inr (x, lp) => some (x, lp, off, m)
      | .inl _ => none
    | _ => none

/-- Whether a write of a range of a partition's view waits for a channel that is being retrained, that of a frame which it is to take among them
(R366). -/
def writeWaits (s : State) (p a n : Nat) : Bool := rangeWaits s p a n || pagesWait s p (spanPieces s p a n)

end Sys2Proof.Machine
end

