-- ==== Sys2Proof/Machine/Placement.lean ====
section
/-! DEFINITION. Where a partition's extents lie (R177 to R184), the checks of a layout (R184, R259, R304), the free ring (R183,
R191) and the counts of extents (R203, R204, R361). -/

namespace Sys2Proof.Machine

/-! ## Modes (R177, R178, R180) -/

/-- The mode of a half-tier in a table of modes. -/
def modeIn (tiers : Map Nat) (t h : Nat) : Nat := look 0 tiers (2 * t + h)

/-- A half, or for mode 2 a whole tier, put into a mode; a tier that leaves AB leaves its other half home (R177, R180). -/
def setMode (tiers : Map Nat) (t h m : Nat) : Map Nat :=
  if m = 2 then put 0 (put 0 tiers (2 * t) 2) (2 * t + 1) 2
  else if modeIn tiers t h = 2 then put 0 (put 0 tiers (2 * t + (1 - h)) 0) (2 * t + h) m
  else put 0 tiers (2 * t + h) m

/-- The absolute address that a package offset has under a table of modes: the inverse of R178. -/
def absOf (tiers : Map Nat) (pkg o : Nat) : Nat :=
  let t := o / gib
  let r := o % gib
  let h := pkg / 12
  match modeIn tiers t h with
  | 0 => (24 * t + pkg) * gib + r
  | 1 => (24 * t + 12 * h) * gib + (r / 4096 * 12 + pkg % 12) * 4096 + r % 4096
  | _ => 24 * t * gib + (r / 4096 * 24 + pkg) * 4096 + r % 4096

/-- The package offset at which burst `i` of a DRAM row of a channel begins (R173, R179, log 32). -/
def rowOffset (ch row i : Nat) : Nat :=
  let d := 1920 * row + 64 * i
  d / 512 * 4096 + ch * 512 + d % 512

/-- The 30 bursts of a DRAM row of channel `u`, 8 × controller + channel, under a table of modes (R173; log 32). -/
def rowBursts (tiers : Map Nat) (u row : Nat) : List Nat := (List.range 30).map fun i => absOf tiers (u / 8) (rowOffset (u % 8) row i) / 64

/-- The extents that hold retired rows, or a part of one, under a table of modes (R361). -/
def retiredExtents (s : State) (tiers : Map Nat) : List Nat :=
  s.raising.retired.flatMap fun (u, row) => ((rowBursts tiers u row).map fun b => 64 * b / gib).eraseDups

/-! ## Placing (R180, R183, R184) -/

/-- The extents that belong to partitions. -/
def State.owned (s : State) : List Nat := (List.range 8).flatMap fun p => (s.part p).extents ++ (s.part p).pool

/-- Whether no extent of a half, or of its whole tier, is taken. -/
def emptyRegion (taken : List Nat) (t : Nat) (h : Option Nat) : Bool :=
  taken.all fun e => e / 24 != t || (match h with
    | some h => e % 24 / 12 != h
    | none => false)

/-- Whether a half is in mode `m`, or is free to be switched to it (R180). -/
def canBe (tiers : Map Nat) (taken : List Nat) (t h m : Nat) : Bool :=
  modeIn tiers t h == m || emptyRegion taken t (if m = 2 ∨ modeIn tiers t h = 2 then none else some h)

/-- The first of some extents that is neither taken nor withheld. -/
def firstFree (s : State) (tiers : Map Nat) (taken es : List Nat) : Option Nat :=
  let bad := retiredExtents s tiers
  es.find? fun e => !taken.contains e && !bad.contains e

/-- A home extent on controller `c`, from tier 59 downward, and the modes after it (R180). -/
def homeExtent (s : State) (tiers : Map Nat) (taken : List Nat) (c : Nat) : Option (Nat × Map Nat) :=
  (List.range 60).reverse.findSome? fun t =>
    if canBe tiers taken t (c / 12) 0 then
      let ts := setMode tiers t (c / 12) 0
      (firstFree s ts taken [24 * t + c]).map (·, ts)
    else none

/-- An extent striped over its half `h` (mode 1) or over AB (mode 2), from tier 0 upward, and the modes after it (R180). -/
def stripedExtent (s : State) (tiers : Map Nat) (taken : List Nat) (h m : Nat) : Option (Nat × Map Nat) :=
  (List.range 60).findSome? fun t =>
    if canBe tiers taken t h m then
      let ts := setMode tiers t h m
      (firstFree s ts taken ((List.range (if m = 2 then 24 else 12)).map (24 * t + 12 * h + ·))).map (·, ts)
    else none

/-- One plain GiB of a plan placed by its code, on controllers in service (R171, R182). -/
def placeOne (s : State) (tiers : Map Nat) (taken : List Nat) (code : Nat) : Option (Nat × Map Nat) :=
  if code < 24 then (if code < s.served then homeExtent s tiers taken code else none)
  else if code = 0x81 then (if 0 < s.served then stripedExtent s tiers taken 0 1 else none)
  else if s.served < 24 then none
  else stripedExtent s tiers taken (if code = 0x82 then 1 else 0) (if code = 0x82 then 1 else 2)

/-- Extents placed for a list of (key, code), added to those placed (key, extent) so far. -/
def placeList (s : State) : List (Nat × Nat) → Map Nat → List Nat → List (Nat × Nat) →
    Option (List (Nat × Nat) × Map Nat × List Nat)
  | [], tiers, taken, got => some (got, tiers, taken)
  | (k, code) :: rest, tiers, taken, got =>
    match placeOne s tiers taken code with
    | some (e, tiers) => placeList s rest tiers (e :: taken) (got ++ [(k, e)])
    | none => none

/-- Pool extents by controller: C div m on each of the m controllers in service, and one more on the lowest C mod m (R183). -/
def poolCodes (m c : Nat) : List (Nat × Nat) :=
  (List.range m).flatMap fun i => List.replicate (c / m + (if i < c % m then 1 else 0)) (i, i)

/-- Where a partition's extents go: its plain GiB in plan order, its pool by controller, and the modes (R184). -/
structure Placed where
  plain : List Nat
  pool  : List (Nat × Nat)
  tiers : Map Nat

/-- The placement of a partition's layout: striped plain extents, home plain extents, then the pool; none where an extent cannot be
placed. Extents that are being scrubbed count as available (R184). -/
def placement (s : State) (p : Nat) : Option Placed :=
  let codes := (s.getB Obj.partPlan (p + 1)).zipIdx.map fun (b, i) => (i, b.toNat)
  let pool := s.getN Obj.partPool (p + 1)
  match placeList s (codes.filter (fun x => decide (0x80 ≤ x.2)) ++ codes.filter fun x => decide (x.2 < 0x80)) s.tiers s.owned [] with
  | none => none
  | some (got, tiers, taken) =>
    if pool ≠ 0 ∧ s.served = 0 then none
    else match placeList s (poolCodes (max s.served 1) pool) tiers taken [] with
      | none => none
      | some (frames, tiers, _) =>
        some { plain := (List.range got.length).map fun i => look 0 got i, pool := frames, tiers }

/-! ## The checks (R184, R259, R304) -/

/-- Whether a plan code is defined (R182). -/
def planCode (b : Byte) : Bool := decide (b.toNat < 24) || b == 0x80 || b == 0x81 || b == 0x82

/-- The checks of R184 in its order, and then TRUSS_CTX (R259). -/
def layoutChecks (s : State) (p : Nat) : List Bool :=
  let q := s.getN Obj.partQuota (p + 1)
  let c := s.getN Obj.partPool (p + 1)
  let plan := s.getB Obj.partPlan (p + 1)
  let sl := s.getN Obj.partWindows (p + 1)
  let w := s.getN Obj.partWinpages (p + 1)
  let truss := ((List.range 8).filter fun i => i == p || s.getN Obj.partState (i + 1) != 0).map fun i => s.getN Obj.trussCtx (i + 1)
  [decide (q ≤ 1440), decide (c ≤ q), plan.length == q - c && plan.all planCode, decide (sl ≤ 512 * (s.rowsOf p).length),
   decide (1 ≤ w ∧ w ≤ 65536), decide (sl * w ≤ c * 16384), (placement s p).isSome, decide (truss.sum ≤ 32)]

/-- The result of RAISE's checks 2 to 4: DONE, ROWS, CONTEXTS or LAYOUT, and the first layout check that failed (R304). -/
def formCheck (s : State) (p : Nat) : Nat × Nat :=
  let others := (List.range 8).filter fun i => i != p && s.getN Obj.partState (i + 1) != 0
  let rows := s.getN Obj.partRows (p + 1)
  let pass := s.getN Obj.raiseBayPass 0
  let base := s.getN Obj.partCtxBase (p + 1)
  let count := s.getN Obj.partCtxCount (p + 1)
  if rows = 0 ∨ others.any (fun i => s.getN Obj.partRows (i + 1) &&& rows != 0) ∨
      !((rowsOfMask rows).all fun y => bits pass (8 * y) 8 == 255) then (4, 0)
  else if 4096 < base + count ∨ others.any (fun i =>
      let b := s.getN Obj.partCtxBase (i + 1)
      let n := s.getN Obj.partCtxCount (i + 1)
      decide (0 < count) && decide (0 < n) && decide (b < base + count) && decide (base < b + n)) then (5, 0)
  else match (layoutChecks s p).findIdx? (! ·) with
    | some i => (6, i + 1)
    | none => (0, 0)

/-! ## The free ring (R183, R191) -/

/-- Frames of pool extents in controller rotation: the i-th frame of every controller before the next of any. -/
def ringOf (pool : List (Nat × Nat)) : List Nat :=
  let mine (c : Nat) : List Nat := (pool.filter (·.1 == c)).map (·.2)
  let most := ((List.range 24).map fun c => (mine c).length).foldl max 0
  (List.range most).flatMap fun k => (List.range 16384).flatMap fun i =>
    (List.range 24).filterMap fun c => ((mine c)[k]?).map fun e => 16384 * e + i

/-! ## Counts (R204) and moves of bursts (R178) -/

/-- MEM_EXT_TOTAL, MEM_EXT_FREE and MEM_EXT_SCRUB: the total is of the extents of the controllers in service, 60 of each, without those withheld for a
retired row, and those of it that no partition has and no scrub keeps are free (R204, R361); before REDUCED service total and free stay
(DESIGN CHOICE, log 190). -/
def countExtents (s : State) : State :=
  let here (e : Nat) : Bool := decide (e % 24 < s.served)
  let used := (s.owned ++ s.scrubExt).filter here
  let withheld := ((retiredExtents s s.tiers).filter fun e => here e && !used.contains e).eraseDups.length
  let total := 60 * s.served - withheld
  let s := s.setN Obj.memExtScrub 0 s.scrubExt.length
  if s.served = 0 then s else (s.setN Obj.memExtTotal 0 total).setN Obj.memExtFree 0 (total - used.length)

/-- New modes: uncorrectable bursts keep their place in their package (R174, R178). -/
def setTiers (s : State) (tiers : Map Nat) : State :=
  { s with
    tiers
    bad := s.bad.map fun b =>
      let (pkg, o) := placeOf s (64 * b)
      absOf tiers pkg o / 64 }

end Sys2Proof.Machine
end

