-- ==== Sys2Proof/Machine/MemoryRows.lean ====
section
/-! DEFINITION. The commands of the memory system (R174, R175, R185, R191, R194, R198, R202, R203). -/

namespace Sys2Proof.Machine

/-- Whether a controller's channel is trained and accepts requests; in REDUCED service MC12 to MC23 accept none (R171, R369). -/
def State.channelUp (s : State) (ctl ch : Nat) : Bool :=
  bit (field (s.getB Obj.raiseChTrained 0) ctl 1) ch && !(s.service == 2 && decide (12 ≤ ctl))

/-- The context of a request whose access ended with DATA_ERROR is FAULTED, by R200's table: a write's, and a mover's or a COPY's read. -/
def faultAsker (s : State) (q : MemReq) : State :=
  match q.ctx with
  | some x => if q.write.isSome ∨ q.reader = 2 ∨ q.reader = 5 then markFaulted s x else s
  | none => s

/-- A bay's core slot or instruction memory, read by the management core (R28, R46). -/
def diagnose (s : State) (c off n : Nat) : Option Bytes :=
  let k := s.core c
  if 0x1_8000 ≤ off ∧ off + n ≤ 0x1_A000 then some (readBytes k.slot0.data (off - 0x1_8000) n)
  else if 0x1_A000 ≤ off ∧ off + n ≤ 0x1_C000 then some (readBytes k.slot1.data (off - 0x1_A000) n)
  else if 0x1_C000 ≤ off ∧ off + n ≤ 0x2_0000 then
    some ((List.range n).map fun i =>
      let a := off - 0x1_C000 + i
      BitVec.ofNat 8 ((look 0 (s.row (rowOf c)).imem (a / 8)).toNat / 2 ^ (8 * (a % 8))))
  else none

/-- Whether the partition that a bay belongs to is RESETTING: the bay's crossbar port then refuses every packet addressed to the bay (R39, R414). -/
def State.bayResets (s : State) (b : Nat) : Bool :=
  let p := (s.bay b).part.toNat
  decide (p < 8) && s.getN Obj.partState (p + 1) == 5

/-- The bay that a region of the absolute view lies in (R46). -/
def Region.bay : Region → Option Nat
  | .window c _ => some (c / 128)
  | .buffer b _ => some b
  | _ => none

/-- The lower part of a bay buffer, below its stream area, which only the streamer reaches (R155). -/
def streamBase : Nat := 0x8_0000

/-- An access to the absolute view outside main memory: only the management core makes one (R44). It reads infeed slots and instruction memories,
reaches the bay buffers below their stream areas, and the control registers, whose contents the spec does not give; one to a bay whose partition is
RESETTING is answered FENCED, and every other access, one to an address that R45 does not list among them, ends with ADDRESS_RANGE; neither has an
effect (R28, R39, R45, R46, R155, R414; log 160). -/
def absolute (s : State) (q : MemReq) : State :=
  let ends (s : State) (st : Byte) (bs : Bytes) : State := s.send (.access q.addr st bs)
  let below (off n : Nat) : Bool := decide (off + n ≤ streamBase)
  if (((region q.addr).bind Region.bay).map s.bayResets).getD false then ends s stFenced []
  else match region q.addr, q.write with
  | some (.window c off), none =>
    match diagnose s c off q.len with
    | some bs => ends s stOk bs
    | none => ends s stRange []
  | some (.buffer b off), none => if below off q.len then ends s stOk (readBytes (s.bay b).buffer off q.len) else ends s stRange []
  | some (.buffer b off), some bs => if !below off bs.length then ends s stRange [] else ends (s.setBay b { s.bay b with buffer := writeBytes (s.bay b).buffer off bs }) stOk []
  | some (.control _), none =>
    let (bs, s) := s.drawBytes q.len
    ends s stOk bs
  | some (.control _), some _ => ends s stOk []
  | _, _ => ends s stRange []

/-- A burst read or write at controller `n`: it ends with DATA_ERROR where its channel's retrain failed (R174, R185, R366). `e` is what the error
code finds in the burst before a write, or in the burst that is read. -/
def burstRequest (s : State) (q : MemReq) (e : Ecc) : State :=
  let burst := q.addr / 64
  let len := match q.write with
    | some bs => bs.length
    | none => q.len
  if onFailedChannel s q.addr len then faultAsker s q
  else
    let fails := e == .uncorrectable || s.bad.contains burst
    let kept := if e == .corrected then noteCorrected s (64 * burst) else s
    match q.write with
    | some bs =>
      if q.addr % 64 == 0 && len == 64 then storeMem s q.addr bs
      else if fails then faultAsker (noteUncorrectable 7 (markBad s burst) (64 * burst)) q
      else storeMem kept q.addr bs
    | none =>
      if fails then faultAsker (noteUncorrectable q.reader.toNat (markBad s burst) (64 * burst)) q else kept

/-- A request that waits for the channel that is being retrained (R366). -/
def holdBack (s : State) (h : Held) : State := { s with raising := { s.raising with held := s.raising.held ++ [h] } }

/-- CONTROLLER_REQUEST: a burst read or write that reaches controller `n`; while its channel is retrained it waits, and none is lost. In self-refresh
the controllers' clocks rest and none reaches one. An address outside main memory is the management core's, and no controller's (R44, R45, R185,
R366, R442, R476). -/
def execControllerRequest (n : Fin 24) (q : MemReq) (e : Ecc) (s : State) : Host.Outcome State Fault Refusal :=
  let (ctl, o) := placeOf s q.addr
  let len := match q.write with
    | some bs => bs.length
    | none => q.len
  .next (
    if 64 < q.addr % 64 + len ∨ len = 0 then s
    else if region q.addr ≠ some (.memory q.addr) then absolute s q
    else if ctl ≠ n ∨ s.resting then s
    else if onFailedChannel s q.addr len then faultAsker s q
    else if !s.channelUp ctl (channelOf o).1 then s
    else if retraining s q.addr len then holdBack s (.burst n q e)
    else burstRequest s q e)

/-- PATROL: a patrol read of a burst of controller `n`; a corrected error is counted, an uncorrectable one is counted,
recorded and left in place; in stage 5 patrol pauses (R175, R442). -/
def execPatrol (n : Fin 24) (addr : Nat) (e : Ecc) (s : State) : Host.Outcome State Fault Refusal :=
  let (ctl, o) := placeOf s addr
  let burst := addr / 64
  .next (
    if memSize ≤ addr ∨ ctl ≠ n ∨ !s.channelUp ctl (channelOf o).1 ∨ retraining s addr 1 ∨ s.resting then s
    else if e == .uncorrectable || s.bad.contains burst then noteUncorrectable 0 (markBad s burst) (64 * burst)
    else if e == .corrected then noteCorrected s (64 * burst) else s)

/-- ALLOCATION_REQUEST: a write to an unmapped page of an open context makes its partition's keeper read the page's entry and map it; a ring
that cannot supply every frame supplies none, and an entry that no copy yields faults the context. In self-refresh the keeper's controller rests
(R191, R200, R366, R476). -/
def execAllocationRequest (p : Fin 8) (x : Fin 4096) (page : Nat) (s : State) : Host.Outcome State Fault Refusal :=
  let c := s.ctx x
  let opened := c.state = .bound ∨ c.state = .active ∨ c.state = .parked
  .next (
    if c.part = p ∧ opened ∧ page < s.getN Obj.partWinpages (p + 1) ∧ (c.frame page).isNone ∧ !mappingWaits s p x page ∧ !s.resting then
      (mapPage s p x page).1
    else s)

/-! ## The translation cache (R193, R194) -/

/-- An entry installed in a slice, the newest first; its set of 16 drops its least recently used entry (R193). -/
def install (es : List JoistEntry) (e : JoistEntry) : List JoistEntry :=
  let rest := es.filter fun d => !(d.part == e.part && d.page == e.page)
  let mine := rest.filter fun d => d.page % 64 == e.page % 64
  let drop := if 16 ≤ mine.length then mine.getLast? else none
  e :: rest.filter fun d => some d != drop

/-- The span pages of a refill's burst, sixteen of one window, with their frames where they are mapped (R194). -/
def refillEntries (s : State) (p x page base : Nat) : List JoistEntry :=
  (List.range 16).filterMap fun i =>
    let lp := page / 16 * 16 + i
    match (s.ctx x).frame lp with
    | some f => some ⟨p, base + lp, f⟩
    | none => none

/-- A refill's burst reaches a slice: its valid entries are installed, and the access that missed learns the page's entry, or that it has none
(R194; log 127). -/
def installRefill (s : State) (b p x page lp : Nat) : State :=
  let y := s.bay b
  let joist := (refillEntries s p x lp (page - lp)).foldl install y.joist
  s.setBay b { y with joist, misses := if y.misses.contains (p, page) then y.misses else y.misses ++ [(p, page)] }

/-- What the error code finds in a burst of the map: an uncorrectable one is kept and noted, a corrected error counted (R174, R200). -/
def findMap (s : State) (b : Nat) (e : Ecc) : State :=
  if e == .uncorrectable || s.bad.contains b then noteUncorrectable 3 (markBad s b) (64 * b)
  else if e == .corrected then noteCorrected s (64 * b) else s

/-- REFILL: a slice that missed on a span page reads the burst that holds its entry from the joist page's primary copy, or
from the other copy where that one is unreadable, and installs the valid entries among its 16; both copies unreadable
fault the context. It waits while its channel is retrained or the controllers' clocks rest (R193, R194, R200, R366, R476). -/
def execRefill (b : Fin 64) (p : Fin 8) (page : Nat) (first second : Ecc) (s : State) :
    Host.Outcome State Fault Refusal :=
  .next (
    if ((s.bay b).joist.any fun e => e.part == p.val && e.page == page) then s
    else match spanPage s p page with
      | .inl _ => s
      | .inr (x, lp) =>
        match entryBursts s x lp with
        | none => s
        | some (a, a') =>
          if retraining s (64 * a) 64 ∨ s.resting then s
          else
            let s := (findMap s a first).count Obj.joistRefills 0 64
            if !unreadable s a then installRefill s b p x page lp
            else
              let s := findMap s a' second
              if !unreadable s a' then installRefill (s.note (some p) .joistCopy [x, lp]) b p x page lp
              else markFaulted s x)

/-! ## Scrubbing on release (R198, R202, R203) -/

/-- The partition whose pool holds a frame. -/
def State.frameOwner (s : State) (f : Nat) : Option Nat :=
  (List.range 8).find? fun p => (s.part p).pool.contains (f * pageSize / gib)

/-- A frame zeroed and returned to its partition's free ring, at its end; a frame whose extent has left its partition
returns to none (R198, R202). -/
def freeFrame (s : State) (f : Nat) : State :=
  let s := scrubMem s (f * pageSize) pageSize
  match s.frameOwner f with
  | some p =>
    let y := s.part p
    (s.setPart p { y with ring := y.ring ++ [f] }).setN Obj.partFramesFree (p + 1) (y.ring.length + 1)
  | none => s

/-- The controllers that hold a part of an extent (R177, R178). -/
def holdersOf (s : State) (e : Nat) : List Nat :=
  match s.tierMode (e / 24) (e % 24 / 12) with
  | 0 => [e % 24]
  | 1 => (List.range 12).map (12 * (e % 24 / 12) + ·)
  | _ => List.range 24

/-- A controller's part of an extent written with zeros (R202, R203). -/
def scrubPart (s : State) (e n : Nat) : State :=
  let mine (a : Nat) : Bool := a / gib == e && (placeOf s a).1 == n
  { s with mem := s.mem.filter fun c => !mine c.1, bad := s.bad.filter fun b => !mine (64 * b) }

/-- A controller has zeroed its part of an extent; the last of its holders returns it to the extents that can be placed (R203). -/
def scrubExtent (s : State) (e n : Nat) : State :=
  let by_ := look [] s.scrubbed e ++ [n]
  let s := scrubPart s e n
  if (holdersOf s e).all by_.contains then
    countExtents { s with scrubExt := s.scrubExt.filter (· != e), scrubbed := put [] s.scrubbed e [] }
  else { s with scrubbed := put [] s.scrubbed e by_ }

/-- Whether controller `n` cannot write a frame or its part of an extent, which lie on all of its channels: one of them is being retrained, or its
retrain failed and requests to it end with DATA_ERROR (R179, R202, R366; log 173). -/
def State.scrubHeld (s : State) (n : Nat) : Bool :=
  s.raising.failedCh.any (fun u => u / 8 == n) || match s.raising.retrain with
  | some (0x21, u, _) => u / 8 == n
  | _ => false

/-- SCRUB_DONE: controller `n` finishes the scrub of its first frame, or, where no frame waits, of its part of the first extent, in the order
of their release, that it has a part of; in stage 5 scrubbing pauses, and while one of its channels cannot be written it is not done (R202, R203,
R366, R442). -/
def execScrubDone (n : Fin 24) (s : State) : Host.Outcome State Fault Refusal :=
  let m := s.mc n
  .next (
    if s.resting ∨ s.scrubHeld n then s
    else match m.scrub with
    | f :: rest => freeFrame (s.setMc n { m with scrub := rest }) f
    | [] =>
      match s.scrubExt.find? fun e => (holdersOf s e).contains n.val && !(look [] s.scrubbed e).contains n.val with
      | some e => scrubExtent s e n
      | none => s)

end Sys2Proof.Machine
end

