-- ==== Sys2Proof/Machine/Flags.lean ====
section
/-! DEFINITION. Predicates and the sticky kerf status. The core has no condition flags (R120): a compare writes a predicate
or a g register, and CORE_KERF is the only sticky status (R72, R120). -/

namespace Sys2Proof.Machine

/-- The compare of SETP by m[3:1] (R125). -/
def compareG (code : Nat) (x y : Word) : Bool :=
  match code with
  | 0 => x == y
  | 1 => x != y
  | 2 => x.slt y
  | 3 => x.ult y
  | 4 => !x.slt y
  | _ => !x.ult y

/-- The operation of PLOG by m[1:0] (R125). -/
def logicP (code : Nat) (x y : Bool) : Bool :=
  match code with
  | 0 => x && y
  | 1 => x || y
  | 2 => x != y
  | _ => x && !y

/-- The INT32 compare of VCMP by m[4:2] (R128). -/
def compareInt (code : Nat) (x y : Word) : Bool :=
  match code with
  | 0 => x == y
  | 1 => x != y
  | 2 => x.slt y
  | 3 => !y.slt x
  | 4 => x.ult y
  | _ => !y.ult x

/-- The FP32 compare of VCMP by m[4:2]: with a NaN operand every one is false except NE, which is true (R128). -/
def compareFp (code : Nat) (x y : Word) : Bool :=
  match code with
  | 0 => (fp32 x).eq (fp32 y)
  | 1 => !(fp32 x).eq (fp32 y)
  | 2 => (fp32 x).lt (fp32 y)
  | _ => (fp32 x).lt (fp32 y) || (fp32 x).eq (fp32 y)

/-- Bits as a g register, bit i from the i-th of the list (R128). -/
def bitsOf : List Bool → Nat
  | [] => 0
  | b :: bs => (if b then 1 else 0) + 2 * bitsOf bs

/-- CORE_KERF after reading entries with these kerf flags (R72). -/
def Core.orKerf (k : Core) (xs : List Entry) : Core := { k with kerf := k.kerf || xs.any (·.k) }

end Sys2Proof.Machine
end

