-- ==== Sys2Proof/Machine/Vector.lean ====
section
/-! DEFINITION. Vector arithmetic, group 0x3 (R79, R128 to R130, R137). -/

namespace Sys2Proof.Machine

/-- Whether lanes are INT32: m[0] (R128). -/
def Fields.int (f : Fields) : Bool := f.m.getLsbD 0

/-- The second operand of each lane: vb, or imm in every lane where m[1] = 1 (R128). -/
def Core.vop2 (k : Core) (f : Fields) : List Word :=
  if f.m.getLsbD 1 then List.replicate 32 f.imm else k.getV f.b

/-- vd := op (va, op2), lane by lane (R128). -/
def lanes (f : Fields) (op : Word → Word → Word) (k : Core) : Issued :=
  .step (k.setV f.d (((k.getV f.a).zip (k.vop2 f)).map fun (x, y) => op x y))

/-- vd := op va, lane by lane. -/
def lanes1 (f : Fields) (op : Word → Word) (k : Core) : Issued :=
  .step (k.setV f.d ((k.getV f.a).map op))

/-- VADD. -/
def execVadd (x : AtCore) (f : Fields) (s : State) : Host.Outcome State Fault Refusal :=
  let c := x.core
  let s := s.strike c x.found
  .next (issue .vadd c f s (lanes f fun x y => if Fields.int f then x + y else fadd x y))
/-- VSUB. -/
def execVsub (x : AtCore) (f : Fields) (s : State) : Host.Outcome State Fault Refusal :=
  let c := x.core
  let s := s.strike c x.found
  .next (issue .vsub c f s (lanes f fun x y => if Fields.int f then x - y else fsub x y))
/-- VMUL: INT32 keeps the low 32 bits. -/
def execVmul (x : AtCore) (f : Fields) (s : State) : Host.Outcome State Fault Refusal :=
  let c := x.core
  let s := s.strike c x.found
  .next (issue .vmul c f s (lanes f fun x y => if Fields.int f then x * y else fmul x y))
/-- VFMA: vd := vd + va × op2, rounded once. -/
def execVfma (x : AtCore) (f : Fields) (s : State) : Host.Outcome State Fault Refusal :=
  let c := x.core
  let s := s.strike c x.found
  .next (issue .vfma c f s fun k =>
    .step (k.setV f.d (((k.getV f.d).zip ((k.getV f.a).zip (k.vop2 f))).map fun (z, x, y) => ffma x y z)))
/-- VMIN: INT32 signed, or unsigned where m[2] = 1. -/
def execVmin (x : AtCore) (f : Fields) (s : State) : Host.Outcome State Fault Refusal :=
  let c := x.core
  let s := s.strike c x.found
  .next (issue .vmin c f s (lanes f fun x y =>
    if Fields.int f then (if (if f.m.getLsbD 2 then y.ult x else y.slt x) then y else x) else fmin x y))
/-- VMAX. -/
def execVmax (x : AtCore) (f : Fields) (s : State) : Host.Outcome State Fault Refusal :=
  let c := x.core
  let s := s.strike c x.found
  .next (issue .vmax c f s (lanes f fun x y =>
    if Fields.int f then (if (if f.m.getLsbD 2 then x.ult y else x.slt y) then y else x) else fmax x y))
/-- VAND. -/
def execVand (x : AtCore) (f : Fields) (s : State) : Host.Outcome State Fault Refusal :=
  let c := x.core
  let s := s.strike c x.found
  .next (issue .vand c f s (lanes f fun x y => x &&& y))
/-- VOR. -/
def execVor (x : AtCore) (f : Fields) (s : State) : Host.Outcome State Fault Refusal :=
  let c := x.core
  let s := s.strike c x.found
  .next (issue .vor c f s (lanes f fun x y => x ||| y))
/-- VXOR. -/
def execVxor (x : AtCore) (f : Fields) (s : State) : Host.Outcome State Fault Refusal :=
  let c := x.core
  let s := s.strike c x.found
  .next (issue .vxor c f s (lanes f fun x y => x ^^^ y))
/-- VSHL: bits [4:0] of the amount. -/
def execVshl (x : AtCore) (f : Fields) (s : State) : Host.Outcome State Fault Refusal :=
  let c := x.core
  let s := s.strike c x.found
  .next (issue .vshl c f s (lanes f fun x y => x <<< (y.toNat % 32)))
/-- VSHR; m[2] = 1 arithmetic. -/
def execVshr (x : AtCore) (f : Fields) (s : State) : Host.Outcome State Fault Refusal :=
  let c := x.core
  let s := s.strike c x.found
  .next (issue .vshr c f s (lanes f fun x y =>
    if f.m.getLsbD 2 then x.sshiftRight (y.toNat % 32) else x >>> (y.toNat % 32)))
/-- VCMP: bit i of gd := compare of lane i by m[4:2]. -/
def execVcmp (x : AtCore) (f : Fields) (s : State) : Host.Outcome State Fault Refusal :=
  let c := x.core
  let s := s.strike c x.found
  .next (issue .vcmp c f s fun k =>
    let cmp := if Fields.int f then compareInt (bits f.m.toNat 2 3) else compareFp (bits f.m.toNat 2 3)
    .step (k.setG f.d (BitVec.ofNat 32 (bitsOf (((k.getV f.a).zip (k.vop2 f)).map fun (x, y) => cmp x y)))))
/-- VSEL: lane i := va if bit i of g(imm[4:0]) is 1, else vb. -/
def execVsel (x : AtCore) (f : Fields) (s : State) : Host.Outcome State Fault Refusal :=
  let c := x.core
  let s := s.strike c x.found
  .next (issue .vsel c f s fun k =>
    let mask := k.getG (f.imm.setWidth 5)
    .step (k.setV f.d ((List.range 32).map fun i =>
      if mask.getLsbD i then k.lane f.a i else k.lane f.b i)))

/-! ## Conversion (R129) -/

/-- The rounding mode of m[1:0] (R129, R134). -/
def roundingOf (m : BitVec 5) : Rounding :=
  match bits m.toNat 0 2 with
  | 0 => .rne
  | 1 => .rtz
  | _ => .sr

/-- The random number of element `j` of row `i` of the SR record at `a`. The element index n + j, in VCVT n + L, is a 32-bit sum, which wraps to 0 past
2^32 − 1 (R76, R137; DESIGN CHOICE, log 186). -/
def Core.srNumber (k : Core) (a i j : Nat) : Nat :=
  let w (off : Nat) : Word := BitVec.ofNat 32 (readNum k.scratch (a + off) 4)
  let row := 0x10 + 16 * i
  srRandom (w row) (w (row + 4)) (w (row + 8)) (w 0) (w (row + 12) + BitVec.ofNat 32 j)

/-- The faults of an SR record of `n` bytes (R129, R137). -/
def Core.recordFault (k : Core) (m : BitVec 5) (a n : Nat) : List (Bool × Byte) :=
  if roundingOf m = .sr then
    [(decide (scratchSize < a + n), addressRange), (a % 16 != 0, misaligned),
      ((wordsIn a n).any k.badWords.contains, dataError)]
  else []

/-- One lane converted between formats (R74 to R78, R129). A source of −0 is an exact zero and gives +0 in every format (DEDUCED, log 80). -/
def convert (src dst : Fmt) (mode : Rounding) (sat : Bool) (r : Nat) (x : Word) : Word :=
  BitVec.ofNat 32 (encodeElem dst mode sat r (decodeElem src (x.toNat % 2 ^ src.width)))

/-- VCVT: source format imm[3:0], result format imm[7:4], mode m[1:0], SAT m[2]. -/
def execVcvt (x : AtCore) (f : Fields) (s : State) : Host.Outcome State Fault Refusal :=
  let c := x.core
  let s := s.strike c x.found
  .next (issue .vcvt c f s fun k =>
    match fmtOf (bits f.imm.toNat 0 4), fmtOf (bits f.imm.toNat 4 4) with
    | some src, some dst =>
      let a := (k.getG f.b).toNat
      .unless (lowest (k.recordFault f.m a 32))
        (.step (k.setV f.d ((List.range 32).map fun i =>
          convert src dst (roundingOf f.m) (f.m.getLsbD 2)
            (if roundingOf f.m = .sr then k.srNumber a 0 i else 0) (k.lane f.a i))))
    | _, _ => .fault illegalInstruction 0)

/-! ## Reduction (R130) -/

/-- One level of the tree: adjacent results combined. -/
def pairUp (op : Word → Word → Word) : List Word → List Word
  | x :: y :: xs => op x y :: pairUp op xs
  | xs => xs

/-- The fixed binary tree over 32 lanes (R130). -/
def tree (op : Word → Word → Word) (xs : List Word) : Word :=
  (pairUp op (pairUp op (pairUp op (pairUp op (pairUp op xs))))).headD 0

/-- The operation of VRED by m[2:1], and its identity (R130). -/
def reduction (int : Bool) (code : Nat) : (Word → Word → Word) × Word :=
  match int, code with
  | false, 0 => (fadd, 0)
  | false, 1 => (fmax, 0xFF80_0000)
  | false, _ => (fmin, 0x7F80_0000)
  | true, 0 => (fun x y => x + y, 0)
  | true, 1 => (maxI, 0x8000_0000)
  | true, _ => (minI, 0x7FFF_FFFF)
where
  /-- the larger signed word -/
  maxI (x y : Word) : Word := if x.slt y then y else x
  /-- the smaller signed word -/
  minI (x y : Word) : Word := if y.slt x then y else x

/-- VRED: bit i of gb disables lane i; the result goes to every lane of vd. -/
def execVred (x : AtCore) (f : Fields) (s : State) : Host.Outcome State Fault Refusal :=
  let c := x.core
  let s := s.strike c x.found
  .next (issue .vred c f s fun k =>
    let (op, unit) := reduction (Fields.int f) (bits f.m.toNat 1 2)
    let off := k.getG f.b
    let xs := (List.range 32).map fun i => if off.getLsbD i then unit else k.lane f.a i
    .step (k.setV f.d (List.replicate 32 (tree op xs))))

/-- VPERM: lane i := lane vb[i][4:0] of va. -/
def execVperm (x : AtCore) (f : Fields) (s : State) : Host.Outcome State Fault Refusal :=
  let c := x.core
  let s := s.strike c x.found
  .next (issue .vperm c f s fun k =>
    .step (k.setV f.d ((List.range 32).map fun i => k.lane f.a ((k.lane f.b i).toNat % 32))))

end Sys2Proof.Machine
end

