-- ==== Sys2Proof/Machine/Tensor.lean ====
section
/-! DEFINITION. The tensor queue and the instructions that enter it: tensor, drain, export and slot release (R85, R88, R95
to R99, R121, R133 to R137, R159). -/

namespace Sys2Proof.Machine

/-! ## Infeed slots (R86, R95 to R99, R159) -/

/-- Infeed slot 0 or 1. -/
def Core.slot (k : Core) (n : Nat) : Slot := if n = 0 then k.slot0 else k.slot1
/-- A core with a slot replaced. -/
def Core.setSlot (k : Core) (n : Nat) (x : Slot) : Core := if n = 0 then { k with slot0 := x } else { k with slot1 := x }

/-- Whether a row's list has fills left (R95, R160). -/
def Row.fillsLeft (r : Row) : Bool := !r.fills.isEmpty || decide (0 < r.descLeft)

/-- Whether an instruction that names a slot of core row `r` faults with STREAM_STATE: the step gives the row no list (R99),
or the list has ended and no core of the row still holds a FULL fill (R159). -/
def noFillComes (s : State) (r : Nat) : Bool :=
  let row := s.row r
  !row.hasList || (!row.fillsLeft &&
    (coresOfRow r).all fun c => (s.core c).slot0.fill != .full && (s.core c).slot1.fill != .full)

/-- The slot that SWAIT or SREL names: imm[0], or gb[13] where m[0] = 1 (R138). -/
def Core.namedSlot (k : Core) (f : Fields) : Nat :=
  if f.m.getLsbD 0 then bits (k.getG f.b).toNat 13 1 else bits f.imm.toNat 0 1

/-- Whether the tensor queue holds an SREL of a slot (R138). -/
def Core.releasing (k : Core) (n : Nat) : Bool := k.tq.any fun e => e.op == .srel n

/-! ## Shapes -/

/-- K of a tensor instruction: imm[17:8] × 32, where 0 means 32,768 (R133). -/
def tensorK (imm : Word) : Nat :=
  let n := bits imm.toNat 8 10
  if n = 0 then 32768 else 32 * n

/-- A row stride field in 16-byte units, where 0 means packed (R133, R134). -/
def stride (n packed : Nat) : Nat := if n = 0 then packed else 16 * n

/-- A drain's format, with its row stride and the bytes it writes past a row's start (R134). -/
def drainShape (imm : Word) : Fmt × Nat × Nat :=
  match fmtOf (bits imm.toNat 0 4) with
  | some f =>
    if f.mx then (f, stride (bits imm.toNat 8 12) f.groupBytes, 16 * f.blockBytes + bits imm.toNat 4 4 + 1)
    else (f, stride (bits imm.toNat 8 12) (2 * f.width), 2 * f.width)
  | none => (.fp32, 0, 0)

/-! ## Issue into the queue (R88, R121) -/

/-- An operation that enters the queue, where its operands have no fault; a full queue stalls issue (R88). -/
def enqueue (k : Core) (faults : List (Bool × Byte)) (op : TensorOp) : Issued :=
  if 4 ≤ k.tq.length then .stall
  else .unless (lowest faults) (.step { k with tq := k.tq ++ [⟨k.pc, op⟩] })

/-- TMMA and TMMAC at issue: reserved gb bits, footprints, alignment, and a row without a stream list (R121, R133). -/
def issueTmma (clear : Bool) (f : Fields) (noFill : Bool) (k : Core) : Issued :=
  match tensorPair f.imm with
  | none => .fault illegalInstruction 0
  | some (fa, fw) =>
    let ga := k.getG f.a
    let gb := k.getG f.b
    let n := tensorK f.imm
    let rs := stride (bits f.imm.toNat 18 12) (fa.rowBytes n)
    let w := bits gb.toNat 0 13
    enqueue k
      [(bits gb.toNat 14 18 != 0, illegalInstruction),
        (decide (scratchSize < ga.toNat + 15 * rs + fa.rowBytes n) || decide (8192 < w + 16 * fw.rowBytes n), addressRange),
        (ga.toNat % 16 != 0 || w % 16 != 0, misaligned), (noFill, streamState)]
      (.tmma clear f.d.toNat ga gb f.imm)

/-- TMMA. -/
def execTmma (x : AtCore) (f : Fields) (s : State) : Host.Outcome State Fault Refusal :=
  let c := x.core
  let s := s.strike c x.found
  .next (issue .tmma c f s (issueTmma false f (noFillComes s (rowOf c))))
/-- TMMAC: clears the tile first. -/
def execTmmac (x : AtCore) (f : Fields) (s : State) : Host.Outcome State Fault Refusal :=
  let c := x.core
  let s := s.strike c x.found
  .next (issue .tmmac c f s (issueTmma true f (noFillComes s (rowOf c))))
/-- TCLR. -/
def execTclr (x : AtCore) (f : Fields) (s : State) : Host.Outcome State Fault Refusal :=
  let c := x.core
  let s := s.strike c x.found
  .next (issue .tclr c f s fun k => enqueue k [] (.tclr f.d.toNat))
/-- TJOIN: XP128 values at ga + i × rs + 16j. -/
def execTjoin (x : AtCore) (f : Fields) (s : State) : Host.Outcome State Fault Refusal :=
  let c := x.core
  let s := s.strike c x.found
  .next (issue .tjoin c f s fun k =>
    let ga := (k.getG f.a).toNat
    let rs := stride (bits f.imm.toNat 0 12) 256
    enqueue k [(decide (scratchSize < ga + 15 * rs + 256), addressRange), (ga % 16 != 0, misaligned)]
      (.tjoin f.d.toNat (k.getG f.a) f.imm))
/-- DRAIN. -/
def execDrain (x : AtCore) (f : Fields) (s : State) : Host.Outcome State Fault Refusal :=
  let c := x.core
  let s := s.strike c x.found
  .next (issue .drain c f s fun k =>
    let ga := (k.getG f.a).toNat
    let gb := (k.getG f.b).toNat
    let (_, rs, last) := drainShape f.imm
    let sr := roundingOf f.m == .sr
    enqueue k
      [(decide (scratchSize < ga + 15 * rs + last) || (sr && decide (scratchSize < gb + 272)), addressRange),
        (ga % 16 != 0 || (sr && gb % 16 != 0), misaligned)]
      (.drain f.d.toNat (k.getG f.a) (k.getG f.b) f.imm f.m))
/-- EXPORT: XP128 values at ga + i × rs + 16j. -/
def execExportTile (x : AtCore) (f : Fields) (s : State) : Host.Outcome State Fault Refusal :=
  let c := x.core
  let s := s.strike c x.found
  .next (issue .exportTile c f s fun k =>
    let ga := (k.getG f.a).toNat
    let rs := stride (bits f.imm.toNat 8 12) 256
    enqueue k [(decide (scratchSize < ga + 15 * rs + 256), addressRange), (ga % 16 != 0, misaligned)]
      (.exportTile f.d.toNat (k.getG f.a) f.imm f.m))
/-- SREL: the release enters the queue. -/
def execSrel (x : AtCore) (f : Fields) (s : State) : Host.Outcome State Fault Refusal :=
  let c := x.core
  let s := s.strike c x.found
  .next (issue .srel c f s fun k =>
    enqueue k [(noFillComes s (rowOf c), streamState)] (.srel (k.namedSlot f)))
/-- SWAIT: gd := the tag of a FULL fill that this core has no SREL pending for; else it stalls (R96, R138). -/
def execSwait (x : AtCore) (f : Fields) (s : State) : Host.Outcome State Fault Refusal :=
  let c := x.core
  let s := s.strike c x.found
  .next (issue .swait c f s fun k =>
    let n := k.namedSlot f
    if noFillComes s (rowOf c) then .fault streamState 0
    else if (k.slot n).fill = .full ∧ !k.releasing n then .step (k.setG f.d ((k.slot n).tag.setWidth 32))
    else .stall)

/-! ## The head of the queue executes (R88, R96, R97, R121, R133 to R137) -/

/-- The entries of a tile, row by row. -/
def Core.tile (k : Core) (t : Nat) : List Entry := readMany {} k.acc (256 * t) 256
/-- A core with a tile's entries replaced. -/
def Core.setTile (k : Core) (t : Nat) (xs : List Entry) : Core := { k with acc := blit {} k.acc (256 * t) xs }
/-- A core with a tile cleared (R61). -/
def Core.clearTile (k : Core) (t : Nat) : Core := { k with acc := wipe k.acc (256 * t) 256 }

/-- An entry after the products of an activation row and a weight column join it in ascending index (R59, R62). -/
def dotProduct (x : Entry) (as ws : List Num) : Entry := (as.zip ws).foldl (fun x (a, w) => joinProduct x (a.mul w)) x

/-- The K elements of an operand row. -/
def elemsOf (f : Fmt) (n : Nat) (bs : Bytes) : List Num := (List.range n).map (rowElem f bs)

/-- What executing an entry gives: it waits, faults, or is done. -/
inductive Executed where
  | wait
  | fault (code : Byte)
  | done (k : Core)

/-- The tile after a TMMA: every entry (i, j) joins the K products of activation row i and weight column j (R85, R133). -/
def Core.multiply (k : Core) (fa fw : Fmt) (d n ga rs slot w : Nat) : Core :=
  let rows := (List.range 16).map fun i => elemsOf fa n (readBytes k.scratch (ga + i * rs) (fa.rowBytes n))
  let cols := (List.range 16).map fun j => elemsOf fw n (readBytes (k.slot slot).data (w + j * fw.rowBytes n) (fw.rowBytes n))
  let ents := k.tile d
  k.setTile d ((List.range 256).map fun e =>
    dotProduct (ents.getD e {}) (rows.getD (e / 16) []) (cols.getD (e % 16) []))

/-- A TMMA at the head of the queue (R96, R133). It reads its whole footprint, the padding of a row's last block group with it (DESIGN
CHOICE, log 120). -/
def runTmma (k : Core) (clear : Bool) (d : Nat) (ga gb imm : Word) (noFill : Bool) : Executed :=
  match tensorPair imm with
  | none => .fault illegalInstruction
  | some (fa, fw) =>
    let n := tensorK imm
    let rs := stride (bits imm.toNat 18 12) (fa.rowBytes n)
    let slot := bits gb.toNat 13 1
    let w := bits gb.toNat 0 13
    if (k.slot slot).fill ≠ .full then (if noFill then .fault streamState else .wait)
    else if ((List.range 16).any fun i => (wordsIn (ga.toNat + i * rs) (fa.rowBytes n)).any k.badWords.contains) ||
        (wordsIn w (16 * fw.rowBytes n)).any (k.slot slot).badWords.contains then .fault dataError
    else .done ((if clear then k.clearTile d else k).multiply fa fw d n ga.toNat rs slot w)

/-- A TJOIN at the head of the queue: entry (i, j) joins the XP128 value at ga + i × rs + 16j (R71, R133). -/
def runTjoin (k : Core) (d : Nat) (ga imm : Word) : Executed :=
  let rs := stride (bits imm.toNat 0 12) 256
  if (List.range 16).any fun i => (wordsIn (ga.toNat + i * rs) 256).any k.badWords.contains then .fault dataError
  else
    let ents := k.tile d
    .done (k.setTile d ((List.range 256).map fun e =>
      joinXp128 (ents.getD e {}) (readNum k.scratch (ga.toNat + e / 16 * rs + e % 16 * 16) 16)))

/-- Element codes packed densely, element 0 lowest (R52). -/
def packCodes (w : Nat) : List Nat → Nat
  | [] => 0
  | c :: cs => c + 2 ^ w * packCodes w cs

/-- The bytes that a drain writes for a row of entries, with their offsets from the row's start (R73 to R78, R134, R135). -/
def drainRow (f : Fmt) (mode : Rounding) (sat : Bool) (blk : Nat) (xs : List Num) (rs : List Nat) : List (Nat × Bytes) :=
  if f.mx then
    let (sc, cs) := mxBlock f mode xs rs
    [(blk * f.blockBytes, leBytes f.blockBytes (packCodes f.width cs)), (16 * f.blockBytes + blk, leBytes 1 sc)]
  else
    let cs := (xs.zip rs).map fun (x, r) => encodeElem f mode sat r x
    [(0, leBytes (2 * f.width) (packCodes f.width cs))]

/-- The writes of a drain: address and bytes, row by row (R134). -/
def drainWrites (k : Core) (d : Nat) (ga gb imm : Word) (m : BitVec 5) : List (Nat × Bytes) :=
  let (f, rs, _) := drainShape imm
  let mode := roundingOf m
  (List.range 16).flatMap fun i =>
    let xs := readMany {} k.acc (256 * d + 16 * i) 16 ++
      (if f.mx then readMany {} k.acc (256 * (d + 1) + 16 * i) 16 else [])
    let rands := (List.range xs.length).map fun j => if mode = .sr then k.srNumber gb.toNat i j else 0
    (drainRow f mode (m.getLsbD 2) (bits imm.toNat 4 4) (xs.map Entry.value) rands).map
      fun (off, bs) => (ga.toNat + i * rs + off, bs)

/-- A DRAIN at the head of the queue: an uncorrectable word of the SR record, or one it writes in part, is a DATA_ERROR
(R91, R134, R137). -/
def runDrain (k : Core) (d : Nat) (ga gb imm : Word) (m : BitVec 5) : Executed :=
  let mx := mxCode (bits imm.toNat 0 4)
  let ws := drainWrites k d ga gb imm m
  let bad := (roundingOf m == .sr && (wordsIn gb.toNat 272).any k.badWords.contains) ||
    ws.any fun (a, bs) => (partialWords a bs.length).any k.badWords.contains
  if bad then .fault dataError
  else
    let ents := k.tile d ++ if mx then k.tile (d + 1) else []
    let k := (ws.foldl (fun k (a, bs) => k.store a bs) k).orKerf ents
    .done (if m.getLsbD 3 then (if mx then (k.clearTile d).clearTile (d + 1) else k.clearTile d) else k)

/-- An EXPORT at the head of the queue: entry (i, j) as XP128 at ga + i × rs + 16j (R71, R72, R134). -/
def runExport (k : Core) (d : Nat) (ga imm : Word) (m : BitVec 5) : Executed :=
  let rs := stride (bits imm.toNat 8 12) 256
  let ents := k.tile d
  let k := ((List.range 256).foldl (fun k e =>
    k.store (ga.toNat + e / 16 * rs + e % 16 * 16) (leBytes 16 (xp128Bits (ents.getD e {})))) k).orKerf ents
  .done (if m.getLsbD 3 then k.clearTile d else k)

/-- An SREL at the head of the queue: the slot reads EMPTY once its fill is FULL (R97), and its bytes read zero until they are filled anew
(DESIGN CHOICE, log 122). -/
def runSrel (k : Core) (slot : Nat) (noFill : Bool) : Executed :=
  if (k.slot slot).fill = .full then .done (k.setSlot slot {})
  else if noFill then .fault streamState else .wait

/-- What an operation does at the head of the queue. -/
def execute (k : Core) (noFill : Bool) : TensorOp → Executed
  | .tmma clear d ga gb imm => runTmma k clear d ga gb imm noFill
  | .tclr d => .done (k.clearTile d)
  | .tjoin d ga imm => runTjoin k d ga imm
  | .drain d ga gb imm m => runDrain k d ga gb imm m
  | .exportTile d ga imm m => runExport k d ga imm m
  | .srel slot => runSrel k slot noFill

end Sys2Proof.Machine
end

