-- ==== Sys2Proof/Machine/Fills.lean ====
section
/-! DEFINITION. Fills: which bytes of a stream the row lists still take, when a row's next fill can be written, and the state FILLING of
its slot (R86, R95, R98, R151, R156, R157, R160). -/

namespace Sys2Proof.Machine

/-- The bytes of a stream flit (R161). -/
def flitSize : Nat := 512

/-! ## Fills (R151, R157) -/

/-- The stream byte at which fill `j` of a descriptor begins. -/
def FillDesc.start (f : FillDesc) (j : Nat) : Nat := (f.offset + j * f.step) * 64

/-- Whether a fill of a descriptor, from repeat `j` on, takes the 64-byte piece `w` of the stream. -/
def FillDesc.names (f : FillDesc) (j w : Nat) : Bool :=
  let n := f.len / 64
  let k := max j ((w + 1 - n - f.offset + f.step - 1) / f.step)
  decide (k < f.count) && decide (f.offset + k * f.step ≤ w) && decide (w < f.offset + k * f.step + n)

/-- The pending fills of a core row, each with the repeat at which it stands. -/
def Row.pending (r : Row) : List (Nat × FillDesc) :=
  match r.fills with
  | [] => []
  | f :: fs => (r.rep, f) :: fs.map (0, ·)

/-- The pending fills of a bay's rows. -/
def State.pendingFills (s : State) (b : Nat) : List (Nat × FillDesc) :=
  (List.range 8).flatMap fun r => (s.row (8 * b + r)).pending

/-- The 64-byte pieces of a flit of a stream that some pending fill of a bay names (R157). -/
def State.wanted (s : State) (b stream i : Nat) : List Nat :=
  let fs := (s.pendingFills b).filter fun (_, f) => f.stream == stream
  (List.range 8).filter fun q => fs.any fun (j, f) => f.names j (8 * i + q)

/-- The fill descriptors of a row that have been fetched (R160). -/
def Row.fetched (r : Row) : Nat := r.fills.length - r.descLeft

/-- A flit without the pieces that fail a test. -/
def StreamFlit.keep (x : StreamFlit) (test : Nat → Bool) : StreamFlit := { x with kept := x.kept.filter test }

/-- A stage's flits after some of their pieces are freed: empty flits leave, and the freed pieces wait to be returned (R157, R162). -/
def Stage.settle (g : Stage) (flits : List StreamFlit) : Stage :=
  let held (fs : List StreamFlit) : Nat := (fs.map (·.kept.length)).sum
  { g with flits := flits.filter fun x => !x.kept.isEmpty, unreturned := g.unreturned + (held g.flits - held flits) }

/-- A bay's stages freed of the bytes that lie below every pending offset (R157). -/
def freeStages (s : State) (b : Nat) : State :=
  let y := s.bay b
  let fs := s.pendingFills b
  let freed (g : Stage) : Stage :=
    let mine := fs.filter fun (_, f) => f.stream == g.stream
    g.settle (g.flits.map fun x => x.keep fun q => mine.any fun (j, f) => decide (f.start j < flitSize * x.index + 64 * q + 64))
  s.setBay b { y with stages := y.stages.map freed }

/-- The bytes of a fill in its stage, where all of them have arrived (R156). -/
def Stage.read (g : Stage) (a n : Nat) : Option Bytes :=
  let lo := a / flitSize
  let fs := (List.range ((a + n + flitSize - 1) / flitSize - lo)).map fun k => g.flits.find? (·.index == lo + k)
  if fs.all Option.isSome then
    some (sub ((fs.filterMap id).flatMap (·.bytes)) (a - lo * flitSize) n)
  else none

/-! ## Slots (R86, R95, R98, R156) -/

/-- The slot of a core that its row's next fill goes to (R95). -/
def Row.slot (y : Row) (k : Core) : Slot := if y.nextSlot = 0 then k.slot0 else k.slot1
/-- A core with that slot replaced. -/
def Row.setSlot (y : Row) (k : Core) (x : Slot) : Core := if y.nextSlot = 0 then { k with slot0 := x } else { k with slot1 := x }

/-- The next fill of a row with its bytes, where its descriptor has been fetched, its slot is released in all 16 cores, and every byte of
it is staged: the streamer writes it (R98, R156, R160). -/
def nextFill (s : State) (i : Nat) : Option (FillDesc × Bytes) :=
  let y := s.row i
  match y.fills with
  | [] => none
  | f :: _ =>
    if y.fetched = 0 ∨ !((coresOfRow i).all fun c => (y.slot (s.core c)).fill != .full) then none
    else (((s.bay (i / 8)).stages.find? (·.stream == f.stream)).bind fun g => g.read (f.start y.rep) f.len).map (f, ·)

/-- The tag of a row's next fill (R151). -/
def Row.tag (y : Row) (f : FillDesc) : Half := f.tag + BitVec.ofNat 16 y.rep

/-- The fill of a row after its next one, with its repeat, where its descriptor has been fetched: the one for the other slot (R95, R160). -/
def Row.following (y : Row) : Option (Nat × FillDesc) :=
  match y.fills with
  | [] => none
  | f :: fs =>
    if y.fetched = 0 then none
    else if y.rep + 1 < f.count then some (y.rep + 1, f)
    else if y.fetched = 1 then none
    else fs.head?.map (0, ·)

/-- A slot of all 16 cores of a row is FILLING, with a fill's tag (R86, R95). -/
def fillSlot (s : State) (i slot : Nat) (tag : Half) : State :=
  (coresOfRow i).foldl (fun s c => s.setCore c ((s.core c).setSlot slot { (s.core c).slot slot with fill := .filling, tag })) s

/-- The streamer begins a fill of a slot that all 16 cores have released, or does not yet: with the whole fill staged it has begun, and while
bytes of it are still to come the slot stays EMPTY or is FILLING, and the rule does not say which (R95, R98, R156, 06_streams.md; log 130). -/
def startFill (s : State) (i slot : Nat) (tag : Half) (staged : Bool) : State :=
  if !((coresOfRow i).all fun c => ((s.core c).slot slot).fill == .empty) then s
  else if staged then fillSlot s i slot tag
  else
    let (n, s) := s.draw
    if n % 2 = 0 then s else fillSlot s i slot tag

/-- Whether a slot of all 16 cores of a row is FILLING. -/
def rowFilling (s : State) (i slot : Nat) : Bool := (coresOfRow i).all fun c => ((s.core c).slot slot).fill == .filling

/-- The fills that a row's streamer may begin: its next, and, once that has begun, the one after it, for the other slot (R86, R95, R98, R156;
log 130). -/
def beginFill (s : State) (i : Nat) : State :=
  let y := s.row i
  match y.fills with
  | [] => s
  | f :: _ =>
    if y.fetched = 0 then s
    else
      let s := startFill s i y.nextSlot (y.tag f) (nextFill s i).isSome
      if !rowFilling s i y.nextSlot then s
      else match y.following with
      | none => s
      | some (j, g) => startFill s i (1 - y.nextSlot) (g.tag + BitVec.ofNat 16 j) false

/-- Fills begun in every row of a bay that has one ready. -/
def beginFills (s : State) (b : Nat) : State := upTo 8 (fun r s => beginFill s (8 * b + r)) s

end Sys2Proof.Machine
end

