-- ==== Sys2Proof/Machine/Sync.lean ====
section
/-! DEFINITION. Barriers and waits, group 0xA (R102 to R105, R142), HALT's part in them (R118), and the head of the tensor
queue as a command. -/

namespace Sys2Proof.Machine

/-! ## Bays and their cores -/

/-- The partition that a bay belongs to (R86: CORE_PART). -/
def State.partOf (s : State) (b : Nat) : Option Nat :=
  let p := (s.bay b).part.toNat
  if p < 8 then some p else none

/-- The bays of a partition, in ascending order of their number. -/
def State.baysOf (s : State) (p : Nat) : List Nat := (List.range 64).filter fun b => s.partOf b = some p

/-- The cores of a bay's rows that are not idle. -/
def State.workers (s : State) (b : Nat) : List Nat := (coresOf b).filter fun c => !(s.row (rowOf c)).idle

/-- Whether a core counts as halted: HALT has issued, its tensor queue is empty and its transfers are complete (R118). -/
def Core.halted (k : Core) : Bool := k.run == .halted && k.tq.isEmpty && k.xfers.isEmpty

/-- The barrier that a core waits at: whether it is BARD, and the id (R102, R103). -/
def Core.barrier (k : Core) : Option (Bool × Byte) :=
  match k.run with
  | .atBarb id => some (false, id)
  | .atBard id => some (true, id)
  | _ => none

/-- The barriers at which the cores of a bay wait; none while some core has neither arrived nor halted. A core that has faulted has done neither, so
its bay's barrier does not complete (R102; DEDUCED, log 83). -/
def State.arrived (s : State) (b : Nat) : Option (List (Bool × Byte)) :=
  let ks := (s.workers b).map s.core
  if ks.all fun k => k.halted || k.barrier.isSome then some (ks.filterMap Core.barrier) else none

/-- Every core of a bay that waits at a barrier, changed. -/
def State.onWaiting (s : State) (b : Nat) (f : Core → Core) : State :=
  (s.workers b).foldl (fun s c => if (s.core c).barrier.isSome then s.setCore c (f (s.core c)) else s) s

/-- A core resumes past its barrier. -/
def Core.resume (k : Core) : Core := { k.next with run := .running }

/-- A core faults at its barrier (R102). -/
def Core.mismatch (k : Core) : Core := k.fault barrierMismatch k.pc 0

/-- Whether all the things a list holds are equal. -/
def allEqual {α : Type} [DecidableEq α] : List α → Bool
  | [] => true
  | x :: xs => xs.all (· = x)

/-- BAY_BARRIER_RELEASE: once every core of the bay has arrived, waiting cores fault where their ids differ or some wait at
BARB and others at BARD; one id at BARB releases them (R102). -/
def settleBay (s : State) (b : Nat) : State :=
  match s.arrived b with
  | some (x :: xs) =>
    if !allEqual (x :: xs) then s.onWaiting b Core.mismatch
    else if x.1 then s else s.onWaiting b Core.resume
  | _ => s

/-- Whether the root has what it waits for from a bay: a token, or nothing where all its cores have halted, since such a bay sends none (R103; DEDUCED,
log 150). -/
def State.bayIn (s : State) (b : Nat) : Bool :=
  (s.bay b).token.isSome || (s.workers b).all fun c => (s.core c).halted

/-- The root sends the release once every token of the partition is in, after checking the ids. Where they differ, the release faults the waiting cores
of every bay that gave a token (R103; DESIGN CHOICE, log 149). -/
def settleRoot (s : State) (p : Nat) : State :=
  let bs := s.baysOf p
  let ids := bs.filterMap fun b => (s.bay b).token
  if !ids.isEmpty && bs.all s.bayIn then
    bs.foldl (fun s b =>
      let y := s.bay b
      if y.token.isSome then s.setBay b { y with token := none, release := some (allEqual ids) } else s) s
  else s

/-- What follows where a core of a bay arrives or halts (R102, R103). -/
def settle (s : State) (b : Nat) : State :=
  let s := settleBay s b
  match s.partOf b with
  | some p => settleRoot s p
  | none => s

/-! ## Instructions -/

/-- BARB: the core waits until its bay's last arrival. -/
def execBarb (x : AtCore) (f : Fields) (s : State) : Host.Outcome State Fault Refusal :=
  let c := x.core
  let s := s.strike c x.found
  .next (issue .barb c f s (fun k => .done { k with run := .atBarb (f.imm.setWidth 8) } 1) fun s => settle s (bayOf c))
/-- BARD: the core waits for the partition's die barrier. -/
def execBard (x : AtCore) (f : Fields) (s : State) : Host.Outcome State Fault Refusal :=
  let c := x.core
  let s := s.strike c x.found
  .next (issue .bard c f s (fun k => .done { k with run := .atBard (f.imm.setWidth 8) } 1) fun s => settle s (bayOf c))
/-- WAITF: waits until the word at ga + imm[16:0] satisfies m[1:0] against gb: 0 EQ, 1 NE, 2 GEU. The address wraps modulo 2^32, as
that of a load does (R105, R142; DESIGN CHOICE, log 188). -/
def execWaitf (x : AtCore) (f : Fields) (s : State) : Host.Outcome State Fault Refusal :=
  let c := x.core
  let s := s.strike c x.found
  .next (issue .waitf c f s fun k =>
    let a := ((k.getG f.a) + f.imm).toNat
    let v : Word := BitVec.ofNat 32 (readNum k.scratch a 4)
    let y := k.getG f.b
    let met := match bits f.m.toNat 0 2 with
      | 0 => v == y
      | 1 => v != y
      | _ => !v.ult y
    .unless (k.scalarFault a 4) (if met then .step k else .stall))
/-- TSYNC: waits until at most imm[2:0] tensor-queue entries remain (R89). -/
def execTsync (x : AtCore) (f : Fields) (s : State) : Host.Outcome State Fault Refusal :=
  let c := x.core
  let s := s.strike c x.found
  .next (issue .tsync c f s fun k => if k.tq.length ≤ bits f.imm.toNat 0 3 then .step k else .stall)
/-- MWAIT: waits until at most imm[3:0] transfers and logit sends are outstanding. -/
def execMwait (x : AtCore) (f : Fields) (s : State) : Host.Outcome State Fault Refusal :=
  let c := x.core
  let s := s.strike c x.found
  .next (issue .mwait c f s fun k => if k.xfers.length ≤ bits f.imm.toNat 0 4 then .step k else .stall)
/-- HALT: stops issue; the PC stays at it (R118, R122). -/
def execHalt (x : AtCore) (f : Fields) (s : State) : Host.Outcome State Fault Refusal :=
  let c := x.core
  let s := s.strike c x.found
  .next (issue .halt c f s (fun k => .done { k with run := .halted } 1) fun s => settle s (bayOf c))

/-! ## Commands of the sequencers -/

/-- DIE_BARRIER_TOKEN: a bay whose cores have all arrived at BARD with one id has its token reach the root, which sends the
release once all are in (R103). -/
def execDieBarrierToken (b : Fin 64) (s : State) : Host.Outcome State Fault Refusal :=
  .next (match s.arrived b, s.partOf b with
    | some ((true, id) :: xs), some p =>
      if allEqual ((true, id) :: xs) ∧ (s.bay b).token = none ∧ (s.bay b).release = none then
        settleRoot (s.setBay b { s.bay b with token := some id }) p
      else s
    | _, _ => s)

/-- DIE_BARRIER_RELEASE: the root's release reaches a bay; its cores resume, or fault where the ids differed (R103). -/
def execDieBarrierRelease (b : Fin 64) (s : State) : Host.Outcome State Fault Refusal :=
  .next (match (s.bay b).release with
    | none => s
    | some ok =>
      (s.setBay b { s.bay b with release := none }).onWaiting b (if ok then Core.resume else Core.mismatch))

/-- The head leaves a core's tensor queue. -/
def Core.pop (k : Core) : Core :=
  let later := k.later.filterMap fun r => if r.2.2 ≤ 1 then none else some (r.1, r.2.1, r.2.2 - 1)
  { k with tq := k.tq.tail, later, under := if later.isEmpty then [] else k.under }

/-- The byte that a store left at `x` where entries of the tensor queue still waited: what lies under an earlier entry's drain, else what
the scratchpad holds (R136). -/
def Core.stored (k : Core) (x : Nat) : Byte := (look none k.under x).getD (byteAt k.scratch x)

/-- The scratchpad ranges that an operation writes: address and length (R134). -/
def Core.footprint (k : Core) : TensorOp → List (Nat × Nat)
  | .drain d ga gb imm m => (drainWrites k d ga gb imm m).map fun w => (w.1, w.2.length)
  | .exportTile _ ga imm _ =>
    let rs := stride (bits imm.toNat 8 12) 256
    (List.range 16).map fun i => (ga.toNat + i * rs, 256)
  | _ => []

/-- What a drain or export leaves where stores that issued after it have written before it: each word that both write ends with one of the
two values, and the module does not say which (R136, log 85). `k` is the core before it, `k'` after it, `rs` the ranges that it writes; the store's byte stays known under
the drain's, for the entries after it that the store overtook too. -/
def mixLater (s : State) (k k' : Core) (rs : List (Nat × Nat)) : Core :=
  let both := (k.later.flatMap fun r => (List.range r.2.1).map (r.1 + ·)).filter fun x =>
    rs.any fun r => decide (r.1 ≤ x) && decide (x < r.1 + r.2)
  both.foldl (fun m x =>
    if Config.freeValue (s.free + x / 4) % 2 = 0 then { m with under := put none m.under x (some (k.stored x)) }
    else { m with scratch := writeBytes m.scratch x [k.stored x] }) k'

/-- Whether an operation writes the scratchpad. -/
def TensorOp.writes (op : TensorOp) : Bool :=
  match op with
  | .drain .. | .exportTile .. => true
  | _ => false

/-- Whether an operation releases a slot. -/
def TensorOp.releases (op : TensorOp) : Bool :=
  match op with
  | .srel _ => true
  | _ => false

/-- TENSOR_QUEUE_ENTRY: the entry at the head of a core's tensor queue executes, where it does not wait for its slot; a fault
names the entry's own PC, and a core that has faulted keeps its first fault; the row's next fill begins once its last core has released
the slot (R98, R108, R121). -/
def execTensorQueueEntry (x : AtCore) (s : State) : Host.Outcome State Fault Refusal :=
  let c := x.core
  let s := s.strike c x.found
  let k := s.core c
  .next (match k.tq with
    | [] => s
    | e :: _ =>
      if k.run = .off then s
      else match execute k (noFillComes s (rowOf c)) e.op with
        | .wait => s
        | .fault code =>
          match k.run with
          | .faulted _ => s
          | _ => s.setCore c (k.fault code e.pc 0)
        | .done k' =>
          if e.op.writes ∧ k.later ≠ [] then
            settle { s.setCore c (mixLater s k k' (k.footprint e.op)).pop with free := s.free + scratchSize / 4 } (bayOf c)
          else
            let s := settle (s.setCore c k'.pop) (bayOf c)
            if e.op.releases then beginFill s (rowOf c) else s)

end Sys2Proof.Machine
end

