-- ==== Sys2Proof/Machine/Work.lean ====
section
/-! DEFINITION. Partitions' work: commands and their completions (R309 to R317), resets of bays (R407), stopping and
releasing a partition (R108, R167, R228, R256, R316). -/

namespace Sys2Proof.Machine

/-! ## Statuses (R312) -/

/-- CORE_FAULT. -/
def stFault : Byte := 0x01
/-- STATE_CONFLICT. -/
def stConflict : Byte := 0x07
/-- INVALID_COMMAND. -/
def stInvalid : Byte := 0x08
/-- PARAM_INVALID. -/
def stParam : Byte := 0x09
/-- IMAGE_INVALID. -/
def stImage : Byte := 0x0A
/-- ROWS_MISMATCH. -/
def stRows : Byte := 0x0B
/-- STREAM_FEED. -/
def stFeed : Byte := 0x0C
/-- STREAM_HOME. -/
def stHome : Byte := 0x0D
/-- TOKEN_TABLE. -/
def stTable : Byte := 0x0E
/-- COLL_ABORT. -/
def stColl : Byte := 0x0F
/-- NO_FRAMES. -/
def stNoFrames : Byte := 0x10
/-- NO_SLOT. -/
def stNoSlot : Byte := 0x11
/-- ABORTED. -/
def stAborted : Byte := 0x12

/-! ## Partition states (R303) and the reasons of shoring -/

/-- ABSENT. -/
def psAbsent : Nat := 0
/-- RAISING. -/
def psRaising : Nat := 1
/-- REDUCED. -/
def psReduced : Nat := 2
/-- READY. -/
def psReady : Nat := 3
/-- SHORED. -/
def psShored : Nat := 4
/-- RESETTING. -/
def psResetting : Nat := 5
/-- REQUEST in PART_SHORE_WHY. -/
def whyRequest : Nat := 1
/-- HOST in PART_SHORE_WHY. -/
def whyHost : Nat := 2
/-- POWER in PART_SHORE_WHY. -/
def whyPower : Nat := 4
/-- COOLING in PART_SHORE_WHY. -/
def whyCooling : Nat := 8
/-- RESET in PART_SHORE_WHY. -/
def whyReset : Nat := 16

/-- PART_STATE. -/
def State.pstate (s : State) (p : Nat) : Nat := s.getN Obj.partState (p + 1)
/-- The state with PART_STATE set. -/
def State.setPstate (s : State) (p v : Nat) : State := s.setN Obj.partState (p + 1) v
/-- PART_SHORE_WHY. -/
def State.why (s : State) (p : Nat) : Nat := s.getN Obj.partShoreWhy (p + 1)
/-- The state with PART_SHORE_WHY set. -/
def State.setWhy (s : State) (p v : Nat) : State := s.setN Obj.partShoreWhy (p + 1) v
/-- The owning port, where there is one. -/
def State.owner (s : State) (p : Nat) : Option Nat :=
  let n := s.getN Obj.partOwner (p + 1)
  if n < 4 then some n else none
/-- Whether a partition is in service: REDUCED or READY, and its release does not wait (R425). -/
def State.inService (s : State) (p : Nat) : Bool := (s.pstate p == psReduced || s.pstate p == psReady) && !(s.part p).releasing
/-- A context number in the partition's range (R303). -/
def State.ownsCtx (s : State) (p x : Nat) : Bool :=
  let b := s.getN Obj.partCtxBase (p + 1)
  decide (b ≤ x) && decide (x < b + s.getN Obj.partCtxCount (p + 1))
/-- The contexts that a partition has in a state other than FREE. -/
def State.ctxsOf (s : State) (p : Nat) : List Nat :=
  s.ctxs.filterMap fun (i, x) => if x.state ≠ .free ∧ x.part = p then some i else none
/-- PT_RESULT of a partition for a port. -/
def State.setResult (s : State) (p n v : Nat) : State :=
  s.setPart p { s.part p with results := put 0 (s.part p).results n v }
/-- A RUNNING result of the partition's owner becomes `v`. -/
def State.endRunning (s : State) (p v : Nat) : State :=
  match s.owner p with
  | some n => if look 0 (s.part p).results n = 1 then s.setResult p n v else s
  | none => s

/-! ## Queue commands (R309, R310) -/

/-- A field of a command. -/
def Cmd.at (c : Cmd) (off k : Nat) : Nat := field c.bytes off k
/-- The class. -/
def Cmd.cls (c : Cmd) : Nat := c.at 0 1
/-- The op. -/
def Cmd.op (c : Cmd) : Nat := c.at 1 1
/-- The command identifier. -/
def Cmd.cid (c : Cmd) : Half := BitVec.ofNat 16 (c.at 2 2)
/-- The ORDER flag. -/
def Cmd.order (c : Cmd) : Bool := bit (c.at 4 2) 0
/-- Whether a command is a boundary command (R314). -/
def Cmd.boundary (c : Cmd) : Bool := c.cls == 1 || c.cls == 2 || c.cls == 4
/-- Whether a command's completion is due. -/
def Cmd.isDone (c : Cmd) : Bool :=
  match c.phase with
  | .done _ => true
  | _ => false
/-- Whether a command has not started. -/
def Cmd.unstarted (c : Cmd) : Bool := c.phase == .accepted
/-- The contexts that a COPY names (R310). -/
def Cmd.named (c : Cmd) : List Nat :=
  (if c.at 0x24 1 = 2 then [c.at 0x28 2] else []) ++ (if c.at 0x25 1 = 2 then [c.at 0x2A 2] else [])

/-- Whether a command's class, op, flags, reserved fields and values keep R309 and R310; `windows` is PART_WINDOWS. -/
def validCmd (windows : Nat) (c : Cmd) : Bool :=
  let z (off k : Nat) : Bool := zeros c.bytes off k
  let op := c.op
  c.at 4 2 / 2 == 0 && z 6 2 && z 0xC 4 &&
  match c.cls with
  | 1 =>
    decide (1 ≤ op ∧ op ≤ 6) && z 0x14 4 && z 0x28 24 &&
      (if op = 2 then decide (c.at 0x12 2 < windows) else z 0x12 2) && (op == 1 || op == 6 || z 0x18 8) &&
      (op == 1 || z 0x20 8)
  | 2 =>
    op == 0 && z 0x2A 6 && z 0x38 8 && c.at 0x18 8 % 64 == 0 && c.at 0x20 8 % 16 == 0 && decide (c.at 0x28 2 ≤ 4096)
  | 3 =>
    let sk := c.at 0x24 1
    let dk := c.at 0x25 1
    let len := c.at 0x20 4
    op == 0 && z 0x27 1 && z 0x2C 20 && len % 64 == 0 && decide (64 ≤ len ∧ len ≤ 16777216) && decide (sk ≤ 3 ∧ dk ≤ 3) &&
      !(sk == 3 && dk == 3) && (sk == 3 || dk == 3 || z 0x26 1) && (sk == 2 || z 0x28 2) && (dk == 2 || z 0x2A 2)
  | 4 => (op == 1 || (op == 2 && z 0x18 8)) && z 0x11 7 && z 0x20 32 && decide (c.at 0x10 1 ≤ 15)
  | 5 => decide (op ≤ 1) && z 0x10 48
  | 6 =>
    (op == 2 || (op == 1 && decide (1 ≤ c.at 0x10 8 ∧ c.at 0x10 8 ≤ 4000000000))) && z 0x18 40
  | _ => false

/-- The queues of a partition. -/
def State.queuesOf (s : State) (p : Nat) : List Nat :=
  s.queues.filterMap fun (i, q) => if q.port.isSome ∧ q.part = p then some i else none

/-- The commands of a partition that have not completed, with their queues. -/
def State.cmdsOf (s : State) (p : Nat) : List (Nat × Cmd) :=
  (s.queuesOf p).flatMap fun q => (s.queue q).cmds.map (q, ·)

/-! ## Completions (R308, R311, R319) -/

/-- The 16 bytes of a completion (R311). -/
def cplBytes (c : Cpl) (head : Nat) (phase : Bool) : Bytes :=
  leBytes 4 c.result.toNat ++ leBytes 4 c.detail.toNat ++ leBytes 2 head ++ leBytes 2 c.cid.toNat ++ [c.status] ++
    leBytes 1 ((if phase then 1 else 0) + (if c.kerf then 2 else 0) + (if c.fault then 4 else 0)) ++ leBytes 2 c.aux.toNat

/-- Whether a completion queue is full: the entry after its tail would be the head (R308). -/
def Queue.full (q : Queue) : Bool := (q.cqTail + 1) % q.cqSize == q.cqHead

/-- Whether a queue's port can still write host memory: its Bus Master Enable is set (R319). -/
def State.masters (s : State) (qn : Nat) : Bool :=
  match (s.queue qn).port with
  | some n => (s.port n).bme
  | none => false

/-- Whether a queue's host is lost (R319). -/
def State.hostGone (s : State) (qn : Nat) : Bool :=
  match (s.queue qn).port with
  | some n => s.getN Obj.hostState (n + 1) == 2
  | none => false

/-- MSI-X vectors of a port (R296). -/
def pcieVectors : Nat := 2048

/-- What a byte of a port's MSI-X table holds where the host has not written it: the mask bit of each entry is set at reset, as PCI Express has it, and
everything else is zero (R298; PRESUMED, log 161). -/
def msixInit (unmasked : Bool) (a : Nat) : Byte := if a % 16 = 12 ∧ !unmasked then 1 else 0

/-- Bytes of a port's MSI-X table (R298). -/
def msixBytes (x : Port) (a n : Nat) : Bytes := (List.range n).map fun i => byteAt x.msix (a + i) ^^^ msixInit x.unmasked (a + i)

/-- A port with bytes of its MSI-X table written; bytes past the table's end have no place (R298). -/
def writeMsix (x : Port) (a : Nat) (bs : Bytes) : Port :=
  if 16 * pcieVectors < a + bs.length then x
  else { x with msix := writeBytes x.msix a ((List.range bs.length).map fun i => bs.getD i 0 ^^^ msixInit x.unmasked (a + i)) }

/-- A port with every vector of its MSI-X table unmasked (R298; PRESUMED, log 161). -/
def unmaskAll (x : Port) : Port :=
  { x with
    unmasked := true
    msix := x.msix.map fun c => if c.1 % 16 = 12 then (c.1, (c.2 ^^^ msixInit x.unmasked c.1) &&& 0xFE) else c }

/-- An entry of a port's MSI-X table: address, data and vector control (R298; PRESUMED, log 161). -/
def msixEntry (x : Port) (v : Nat) : Bytes := msixBytes x (16 * v) 16

/-- Whether a vector is masked: bit 0 of its entry's vector control (R296, R298; PRESUMED, log 161). -/
def masked (x : Port) (v : Nat) : Bool := bit (field (msixEntry x v) 12 4) 0

/-- The pending bit of a vector set or cleared (R298). -/
def setPending (x : Port) (v : Nat) (on : Bool) : Port :=
  { x with pba := writeBytes x.pba (v / 8) [BitVec.ofNat 8 (setBit (byteAt x.pba (v / 8)).toNat (v % 8) on)] }

/-- A vector's message is sent, or, while the vector is masked, its pending bit is set (R298, R308; PRESUMED, log 161). -/
def sendMsix (s : State) (n : Nat) (v : Word) : State :=
  let x := s.port n
  let e := msixEntry x v.toNat
  if masked x v.toNat then s.setPort n (setPending x v.toNat true)
  else s.send (.msix n v (BitVec.ofNat 64 (field e 0 8)) (BitVec.ofNat 32 (field e 8 4)))

/-- A completion written to host memory, with the queue's MSI-X message unless one was sent since the last DB_CQ_HEAD write. One that cannot be written
is dropped and counted: Bus Master Enable is clear, or the queue of a lost host is full (R308, R311, R319; DESIGN CHOICE, log 200). -/
def writeCpl (s : State) (qn : Nat) (c : Cpl) : State :=
  let q := s.queue qn
  match q.port with
  | none => s
  | some n =>
    if !(s.port n).bme || (q.full && s.hostGone qn) then (s.send (.dropped n c.cid)).count Obj.hostCplDrop (n + 1)
    else
      let s := s.send (.hostWrite n (q.cqBase + BitVec.ofNat 64 (16 * q.cqTail)) (cplBytes c q.sqHead q.phase))
      let wrap := q.cqTail + 1 == q.cqSize
      let q := { q with cqTail := if wrap then 0 else q.cqTail + 1, phase := if wrap then !q.phase else q.phase }
      if q.vector ≠ 0xFFFF_FFFF ∧ !q.msiSent then
        sendMsix (s.setQueue qn { q with msiSent := true }) n q.vector
      else s.setQueue qn q

/-- Completions that are due, written in the order in which their commands completed while the queue has room; those of a lost host wait for none
(R308, R319). -/
def writeDue (s : State) (qn : Nat) : State :=
  (s.queue qn).cmds.foldl (fun s c =>
    match c.phase with
    | .done cpl =>
      if (s.queue qn).full && s.masters qn && !s.hostGone qn then s
      else
        let s := writeCpl s qn cpl
        s.setQueue qn { s.queue qn with cmds := (s.queue qn).cmds.filter (·.seq != c.seq) }
    | _ => s) s

/-- Completions written as they come due; a partition's reset holds them back until it ends, and a restart of the management core until it is
over (R308, R376, R418). -/
def flushQueue (s : State) (qn : Nat) : State :=
  if s.pstate (s.queue qn).part = psResetting ∨ !s.serving then s else writeDue s qn

/-- A command's completion becomes due, after those already due. -/
def makeDone (s : State) (qn seq : Nat) (cpl : Cpl) : State :=
  let q := s.queue qn
  match q.cmds.find? (·.seq == seq) with
  | none => s
  | some c =>
    s.setQueue qn { q with
      cmds := q.cmds.filter (·.seq != seq) ++ [{ c with phase := .done { cpl with cid := c.cid } }] }

/-! ## Fetching and accepting (R308, R309, R317, R441) -/

/-- Whether the module fetches from a queue: its host is not lost, its partition does not drain, nothing pauses fetching and
there is room for an accepted command (R308, R317, R319, R428, R441). -/
def State.fetches (s : State) (qn : Nat) : Bool :=
  let q := s.queue qn
  match q.port with
  | none => false
  | some n =>
    !q.deleting && (s.part q.part).drain == 0 && s.getN Obj.hostState (n + 1) != 2 && s.serving && !s.pins.departed &&
      decide (s.stage < 4) && decide (q.cmds.length < 256) &&
      decide ((s.queues.map fun e => e.2.cmds.length).sum < 16384) && s.pstate q.part != psAbsent

/-- The entry at a queue's head is accepted: it takes the partition's next order number, and one that breaks R309 or R310
completes with INVALID_COMMAND. -/
def acceptOne (s : State) (qn : Nat) (bytes : Bytes) : State :=
  let q := s.queue qn
  let y := s.part q.part
  let c : Cmd := { seq := y.order, bytes, phase := .accepted }
  let s := s.setPart q.part { y with order := y.order + 1 }
  let s := s.setQueue qn { q with
    posted := q.posted.drop 1, sqHead := (q.sqHead + 1) % max q.sqSize 1, cmds := q.cmds ++ [c] }
  if validCmd (s.getN Obj.partWindows (q.part + 1)) c then s
  else flushQueue (makeDone s qn c.seq { status := stInvalid }) qn

/-- SQ_FETCH: the module fetches and accepts what a queue posts, while it may (R308). -/
def fetchQueue (s : State) (qn : Nat) : State :=
  (s.queue qn).posted.foldl (fun s bytes => if s.fetches qn then acceptOne s qn bytes else s) s

/-- SQ_FETCH on every queue. -/
def fetchAll (s : State) : State := (s.queues.map (·.1)).foldl fetchQueue s

/-! ## Resetting bays (R116, R407) -/

/-- A bay reset: its cores, scratchpads, slots, instruction and table memory, sequencer, streamer and mover, and its buffer
(R407). The registers that name its partition keep their values. -/
def resetBay (s : State) (b : Nat) : State :=
  let y := s.bay b
  { s with
    cores := wipe s.cores (128 * b) 128
    rows := wipe s.rows (8 * b) 8
    bays := put {} s.bays b { py := y.py, pk := y.pk, part := y.part, joist := y.joist } }

/-- A bay returns to no partition (R407). -/
def freeBay (s : State) (b : Nat) : State := { resetBay s b with bays := put {} (resetBay s b).bays b { joist := (s.bay b).joist } }

/-- The bays of a partition's rows take its place: CORE_PY, CORE_PK and CORE_PART, at its formation, and after a warm reset, which has put them at
their defaults, as it is reset, released or returned to service (R86, R304; DESIGN CHOICE, log 175). -/
def claimBays (s : State) (p : Nat) : State :=
  let rows := s.rowsOf p
  rows.zipIdx.foldl (fun s (y, i) =>
    upTo 8 (fun x s =>
      let b := 8 * y + x
      s.setBay b { s.bay b with py := BitVec.ofNat 32 i, pk := BitVec.ofNat 32 rows.length, part := BitVec.ofNat 32 p }) s) s

/-! ## Stopping a partition's work -/

/-- The cores of a bay stop: no queue entry, transfer or send of theirs remains (R108, R411). The collectives that they posted stay with the
engine until they complete or abort (R241). -/
def stopBay (s : State) (b : Nat) : State :=
  let s := (coresOf b).foldl (fun s c =>
    let k := s.core c
    if k.run = .off then s else s.setCore c { k with run := .off, tq := [], xfers := [], xferErr := none }) s
  s.setBay b { s.bay b with token := none, release := none, loaded := false, slices := [] }

/-- STREAM_CANCEL: every stream of a partition is cancelled; its contexts, stages and lists are freed (R167). -/
def cancelStreams (s : State) (p : Nat) : State :=
  let s := upTo 24 (fun n s =>
    let m := s.mc n
    s.setMc n { m with streams := m.streams.filter fun e =>
      match e.2 with
      | some x => x.part != p
      | none => false }) s
  (s.baysOf p).foldl (fun s b =>
    let s := s.setBay b { s.bay b with stages := [], inflight := [] }
    upTo 8 (fun r s => s.setRow (8 * b + r)
      { s.row (8 * b + r) with hasList := false, fills := [], descLeft := 0, rep := 0, nextSlot := 0 }) s) s

/-- A partition's collectives and queued requests are cancelled; no flag or done word is written (R256). -/
def cancelColls (s : State) (p : Nat) : State :=
  let s := upTo 32 (fun i s =>
    match s.coll i with
    | some x => if x.part = p then s.setColl i none else s
    | none => s) s
  let s := (s.baysOf p).foldl (fun s b => s.setBay b { s.bay b with posts := [] }) s
  (s.setPart p { s.part p with posts := [] }).setN Obj.trussActive (p + 1) 0

/-- A partition's rows, spills and descriptors in the sampler units are dropped (R228). -/
def dropRows (s : State) (p : Nat) : State :=
  let s := upTo 8 (fun u s =>
    let x := s.su u
    s.setSu u { x with descs := x.descs.filter (·.part != p), engines := x.engines.filter (·.part != p) }) s
  let s := (s.baysOf p).foldl (fun s b => s.setBay b { s.bay b with slices := [], suCredit := [] }) s
  (s.ctxsOf p).foldl (fun s x => if (s.ctx x).spill.isSome then s.setCtx x { s.ctx x with spill := none } else s) s

/-- What the step has written in its scratchpads is undefined after a fault (R109): free values. -/
def loseWritten (s : State) (b : Nat) : State :=
  (coresOf b).foldl (fun s c =>
    (s.core c).written.foldl (fun s (a, n) =>
      let (bs, s) := s.drawBytes n
      let k := s.core c
      s.setCore c { k with scratch := writeBytes k.scratch a bs }) s) s

/-- Entries of a partition's span pages that meet a test are invalidated in all 64 slices of the translation cache (R195). -/
def dropJoist (s : State) (p : Nat) (test : Nat → Bool) : State :=
  upTo 64 (fun b s =>
    s.setBay b { s.bay b with
      joist := (s.bay b).joist.filter fun e => !(e.part == p && test e.page)
      misses := (s.bay b).misses.filter fun e => !(e.1 == p && test e.2) }) s

/-! ## How a step ends (R108, R109, R311, R313, R413) -/

/-- The place of a core among its partition's: row, then x, r and c (R109); it is the place part of the detail field (R313). -/
def State.placeOfCore (s : State) (c : Nat) : Nat :=
  c % 16 + 16 * (rowOf c % 8 + 8 * (bayX (bayOf c) + 8 * (s.bay (bayOf c)).py.toNat))

/-- A core that has learned of a transfer's or a send's error faults by it, though no instruction has issued since (R122, R413; DEDUCED, log 152). -/
def Core.due (k : Core) : Core :=
  match k.run, k.xferErr with
  | .running, some st => k.fault transferError k.pc (st.setWidth 16)
  | _, _ => k

/-- The faults of a partition's cores. -/
def State.coreFaults (s : State) (p : Nat) : List CoreFault :=
  ((s.baysOf p).flatMap coresOf).filterMap fun c =>
    let k := (s.core c).due
    match k.run with
    | .faulted code => some ⟨s.placeOfCore c, code, k.faultPc, k.faultAux⟩
    | _ => none

/-- Whether an uncorrectable error has touched a transfer that a core of a partition has not finished (R140, R413). -/
def State.spoiled (s : State) (p : Nat) : Bool :=
  ((s.baysOf p).flatMap coresOf).any fun c => (s.core c).run != .off && (s.core c).xfers.any (·.status == stData)

/-- The status that a core's fault gives its step (R108). -/
def CoreFault.status (f : CoreFault) : Byte :=
  if f.code = dataError then stData
  else if f.code = transferError then f.aux.setWidth 8
  else stFault

/-- Endings joined, each once, in the order in which they came. -/
def joinEnds (old new : List Byte) : List Byte := new.foldl (fun l e => if l.contains e then l else l ++ [e]) old

/-- The rank of a status among a step's endings (R413); statuses of transfers that the order does not list follow CORE_FAULT
(DESIGN CHOICE, log 41). -/
def endRank (st : Byte) : Nat :=
  if st = stData then 0 else if st = stFault then 1 else if st = stColl then 0x400 else if st = stTimeout then 0x500
  else if st = stFenced then 0x600 else if st = stAborted then 0x700 else 2 + st.toNat

/-- The first status that applies. -/
def firstEnd : List Byte → Byte
  | [] => stOk
  | e :: es => if es.all fun d => decide (endRank e ≤ endRank d) then e else firstEnd es

/-- The lowest-placed fault with a status (R109). -/
def lowestFault (st : Byte) (fs : List CoreFault) : Option CoreFault :=
  (fs.filter (·.status == st)).foldl (fun m f =>
    match m with
    | some g => if f.place < g.place then some f else m
    | none => some f) none

/-- The cores of a partition that run its step. -/
def State.workersOf (s : State) (p : Nat) : List Nat := (s.baysOf p).flatMap s.workers

/-- The completion of a step that ends as `st` (R311, R313). The kerf bit of a step that ends before its cores start is clear: no drain or
export of it has read an entry (R72; DEDUCED, log 148). -/
def stepCpl (s : State) (p : Nat) (r : StepRun) : Cpl :=
  let st := firstEnd r.ends
  let ks := (s.workersOf p).map s.core
  let cyc := min ((ks.map fun k => k.cycles.toNat).foldl max 0) 0xFFFF_FFFF
  let base : Cpl := { status := st, kerf := r.started && ks.any (·.kerf), fault := r.tokens.any (·.status != tsOk0) }
  if st = stOk then
    { base with result := BitVec.ofNat 32 cyc, detail := BitVec.ofNat 32 ((r.tokens.map fun t => t.emitted.length).sum) }
  else match lowestFault st r.faults with
    | some f =>
      { base with
        result := BitVec.ofNat 32 (f.pc % 2048 + 2048 * r.faults.length),
        detail := BitVec.ofNat 32 (f.code.toNat + 256 * f.place)
        aux := if f.code = trapFault then f.aux else 0 }
    | none =>
      if st = stColl then
        { base with
          result := BitVec.ofNat 32 cyc
          detail := match r.collAbort with
            | some (t, cs) => BitVec.ofNat 32 (t % 2 ^ 16 + cs.toNat * 2 ^ 16)
            | none => 0 }
      else base
where
  /-- OK of the token table (R217). -/
  tsOk0 : Byte := 0x00

/-- The contexts of a step that has ended: FAULTED where an uncorrectable error touched it, else BOUND (R110, R318, R413). -/
def settleCtxs (s : State) (r : StepRun) : State :=
  let bad := r.dataErr || r.ends.contains stData
  r.tokens.foldl (fun s t =>
    let c := s.ctx t.ctx
    match c.state with
    | .active | .bound => s.setCtx t.ctx { c with state := if bad then .faulted else .bound }
    | _ => s) s

/-- The Scribe records the fault that a completion reports, with the image's build identifier (R109, R111, R465). -/
def recordFault (s : State) (p : Nat) (r : StepRun) : State :=
  match lowestFault (firstEnd r.ends) r.faults with
  | some f =>
    s.recordFor (some p) 0x0010
      [p + 256 * f.code.toNat + 65536 * (f.pc % 2048), r.build.toNat % 2 ^ 32, r.build.toNat / 2 ^ 32]
  | none => s

/-- The step of a partition whose work stops for good completes with the first status that applies to the endings that it has met, ABORTED
among them; its rows are cancelled (R228, R229, R317, R413). -/
def abortStep (s : State) (p : Nat) : State :=
  match (s.part p).step with
  | none => s
  | some r =>
    let fs := s.coreFaults p
    let r := { r with
      faults := r.faults ++ fs, ends := joinEnds r.ends (fs.map (·.status) ++ [stAborted]), dataErr := r.dataErr || s.spoiled p }
    makeDone (recordFault (settleCtxs s r) p r) r.queue r.seq (stepCpl s p r)

/-! ## Releasing a partition (R316, R425) -/

/-- Every command of a partition that has not completed ends with a status, where it has none yet. -/
def endCmds (s : State) (p : Nat) (st : Byte) : State :=
  (s.cmdsOf p).foldl (fun s (q, c) => if c.isDone then s else makeDone s q c.seq { status := st }) s

/-- A queue that no longer exists; QS_RESULT is DONE where it told of its DELETE (R307). -/
def dropQueue (s : State) (q : Nat) : State :=
  let n := (s.queue q).port
  let s := s.setQueue q {}
  match n with
  | some n =>
    if (s.port n).deletes = some q then (s.setPort n { s.port n with deletes := none }).setR n Reg.qsResult 0 else s
  | none => s

/-- Whether an access to a partition's extents is in progress: a request that a station serves and that still waits, or a host's access that a
retrain holds (R366, R425). -/
def State.accessed (s : State) (p : Nat) : Bool :=
  s.net.serving.any (fun v => v.part == p && v.due.isSome) || s.raising.held.any fun h =>
    match h with
    | .read _ part _ _ | .write _ part _ _ => part == p
    | _ => false

/-- The commands of a partition that have not completed end with ABORTED, and its queues are deleted (R307, R316). -/
def dropQueues (s : State) (p : Nat) : State :=
  let qs := s.queuesOf p
  qs.foldl dropQueue (qs.foldl flushQueue (endCmds s p stAborted))

/-- The work of a partition that is released stops, and its queues are deleted (R307, R316). -/
def stopReleased (s : State) (p : Nat) : State :=
  let s := abortStep s p
  let s := cancelColls (dropRows (cancelStreams ((s.baysOf p).foldl stopBay s) p) p) p
  dropQueues (s.setPart p { s.part p with step := none, boundary := none, drain := 0, after := 0 }) p

/-- The remote requests of a partition that no longer waits for them: a reply only frees its reservation (R278, R425). -/
def forgetRequests (s : State) (p : Nat) : State :=
  { s with net := { s.net with requests := s.net.requests.map fun r => if r.part = p then { r with who := .gone } else r } }

/-- A partition becomes ABSENT: queues that it has are deleted, one that was created while the release waited among them, its contexts are FREE, its job
is given up, its bays belong to no partition and its extents enter scrubbing (R203, R307, R316, R407, R425). -/
def freePart (s : State) (p : Nat) : State :=
  let s := dropQueues s p
  let y := s.part p
  let s := claimBays s p
  let s := (s.baysOf p).foldl freeBay (s.setPstate p psAbsent)
  let s := { s with ctxs := s.ctxs.filter fun e => e.2.part != p }
  let s := dropJoist (forgetRequests { s with scrubExt := s.scrubExt ++ y.extents ++ y.pool } p) p fun _ => true
  let s := ((s.setWhy p 0).setN Obj.jobId (p + 1) 0xFFFF).setN Obj.gramLoaded (p + 1) 0
  let s := (s.setN Obj.partFramesFree (p + 1) 0).setN Obj.partFramesUsed (p + 1) 0
  countExtents ((s.setPart p { y with
    extents := [], pool := [], ring := [], rotor := 0, grammars := [], valid := [], step := none, boundary := none, drain := 0, after := 0
    posts := [], ticket := 0, seqNext := [], seqLast := [], releasing := false }).endRunning p 0)

/-- A release that waits ends once no access to the partition's extents is in progress (R425). -/
def releaseCheck (s : State) (p : Nat) : State := if (s.part p).releasing ∧ !s.accessed p then freePart s p else s

/-- A partition is released: its work stops at once, and it returns to ABSENT once every access in progress to its extents has completed; until
then it serves nothing new (R316, R425; log 158). -/
def release (s : State) (p : Nat) : State :=
  let s := stopReleased s p
  releaseCheck (s.setPart p { s.part p with releasing := true }) p

/-! ## Shoring and drains (R316, R319, R320) -/

/-- The port's hold timer starts, where it does not run (R319). -/
def startHold (s : State) (n : Nat) : State :=
  let x := s.port n
  if x.holding then s else s.setPort n { x with holding := true, holdFrom := s.clock.up }

/-- What follows where a lost host's partition is SHORED: once its last accepted command has completed, its queues are deleted and the hold timer
starts, and a HOST_HOLD of 0 releases it at once. Until then the queues stay for those completions, and fetch nothing (R316, R319, R320). -/
def leaveHost (s : State) (p : Nat) : State :=
  let qs := s.queuesOf p
  let s := qs.foldl flushQueue s
  if (s.cmdsOf p).isEmpty then
    let s := qs.foldl dropQueue s
    match s.owner p with
    | some n => if s.getN Obj.hostHold (n + 1) = 0 then release s p else startHold s n
    | none => s
  else
    let s := qs.foldl (fun s q => s.setQueue q { s.queue q with deleting := true }) s
    s.setPart p { s.part p with drain := (s.part p).drain ||| whyHost }

/-- A partition becomes SHORED for reasons (R316, R319). -/
def shore (s : State) (p reasons : Nat) : State :=
  let s := ((s.setPstate p psShored).setWhy p (s.why p ||| reasons)).endRunning p 0
  if bit reasons 1 then leaveHost s p else s

/-- DRAIN_COMPLETE: a draining partition whose last accepted command has completed becomes SHORED (R316). -/
def drainCheck (s : State) (p : Nat) : State :=
  let d := (s.part p).drain
  if d ≠ 0 ∧ (s.cmdsOf p).isEmpty then
    shore (s.setPart p { s.part p with drain := 0 }) p d
  else s

/-- A deleted queue whose last completion is written exists no longer (R307). -/
def deleteCheck (s : State) (q : Nat) : State :=
  if (s.queue q).deleting ∧ (s.queue q).cmds.isEmpty then dropQueue s q else s

/-- A partition stops fetching and runs every accepted command to completion, then becomes SHORED (R316). -/
def startDrain (s : State) (p reasons : Nat) : State :=
  drainCheck (s.setPart p { s.part p with drain := (s.part p).drain ||| reasons }) p

/-! ## What a completion brings about -/

/-- Whether a FENCE's condition is met: every command accepted before it, of its queue or of the partition, has completed
(R314). -/
def fenceMet (s : State) (p q : Nat) (c : Cmd) : Bool :=
  (s.cmdsOf p).all fun (q', d) => (c.op == 0 && q' != q) || decide (c.seq ≤ d.seq)

/-- Started FENCEs of a partition whose condition is met complete, in order of acceptance. -/
def settleFences (s : State) (p : Nat) : State :=
  (List.range (s.part p).order).foldl (fun s i =>
    match (s.cmdsOf p).find? fun (_, c) => c.seq == i with
    | some (q, c) =>
      if c.cls = 5 ∧ c.phase = .started ∧ fenceMet s p q c then flushQueue (makeDone s q c.seq {}) q else s
    | none => s) s

/-- After completions have been made due: they are written, FENCEs are satisfied, deleted queues go, more is fetched, and a
drain may end (R307, R308, R314, R316). -/
def settleWork (s : State) (p : Nat) : State :=
  let s := (s.queuesOf p).foldl flushQueue s
  let s := settleFences s p
  let s := (s.queuesOf p).foldl deleteCheck s
  drainCheck (fetchAll s) p

/-- A command completes (R311). -/
def finish (s : State) (q seq : Nat) (cpl : Cpl) : State :=
  let p := (s.queue q).part
  let y := s.part p
  let s := if y.boundary = some (q, seq) then s.setPart p { y with boundary := none } else s
  settleWork (makeDone s q seq cpl) p

/-! ## Dispatch (R314, R317) -/

/-- The command that a queue dispatches next: its first that has not started, where an ORDER flag does not hold it back and
the completion queue has room, or its host is lost and moves no head any more (R308, R314, R319; log 200). -/
def State.ready (s : State) (qn : Nat) : Option Cmd :=
  let q := s.queue qn
  if q.port.isNone || (q.full && !s.hostGone qn) || !s.serving || s.pins.departed then none
  else match q.cmds.find? Cmd.unstarted with
    | none => none
    | some c => if c.order ∧ q.cmds.any (fun d => d.seq < c.seq) then none else some c

/-- Whether a STEP waits for dispatch: JOB_WAIT is 1, or stage 1 is in force and its queue carries prefill (R420, R438). -/
def State.heldStep (s : State) (p q : Nat) (c : Cmd) : Bool :=
  c.cls == 2 && (s.getN Obj.jobWait (p + 1) == 1 || (decide (1 ≤ s.stage) && (s.queue q).shed == 1))

/-- The queues of a partition that have a boundary command ready. -/
def State.readyBoundary (s : State) (p : Nat) : List Nat :=
  (s.queuesOf p).filter fun q =>
    match s.ready q with
    | some c => c.boundary && !s.heldStep p q c
    | none => false

/-- The queue whose boundary command runs next, by weighted round robin in queue order: the queue whose turn it is, for as
many commands as its weight, then the next (R314; DESIGN CHOICE, log 40). -/
def State.turnOf (s : State) (p : Nat) : Option Nat :=
  let y := s.part p
  let qs := s.readyBoundary p
  if qs.contains y.turn ∧ y.used < (s.queue y.turn).weight then some y.turn
  else match qs.find? fun q => decide (y.turn < q) with
    | some q => some q
    | none => qs.head?

/-- A boundary command holds its partition's boundary. -/
def hold (s : State) (p qn : Nat) (c : Cmd) : State := s.setPart p { s.part p with boundary := some (qn, c.seq) }

/-- A command starts; a boundary command holds its partition's boundary. -/
def start (s : State) (qn : Nat) (c : Cmd) : State :=
  let q := s.queue qn
  let s := s.setQueue qn { q with cmds := q.cmds.map fun d => if d.seq = c.seq then { d with phase := .started } else d }
  if c.boundary then hold s q.part qn c else s

/-- A boundary command is dispatched: it takes its queue's turn (R314). -/
def takeTurn (s : State) (p qn : Nat) : State :=
  let y := s.part p
  s.setPart p { y with turn := qn, used := if y.turn = qn ∧ y.used < (s.queue qn).weight then y.used + 1 else 1 }

/-- Queue `qn` dispatches its next command, where that has class `cls` and op `op`. In SHORED every command but FENCE and
TIMER conflicts; one boundary command runs at a time (R314, R317). -/
def dispatch (qn cls op : Nat) (s : State) (run : Nat → Cmd → State → State) : State :=
  match s.ready qn with
  | none => s
  | some c =>
    let p := (s.queue qn).part
    if c.cls ≠ cls ∨ c.op ≠ op then s
    else if s.pstate p = psShored ∧ cls ≠ 5 ∧ cls ≠ 6 then finish s qn c.seq { status := stConflict }
    else if !s.inService p ∧ s.pstate p ≠ psShored then s
    else if c.boundary then
      match (s.part p).boundary with
      | some x => if x = (qn, c.seq) then run p c s else s
      | none => if s.turnOf p = some qn then run p c (takeTurn s p qn) else s
    else run p c s

end Sys2Proof.Machine
end

