-- ==== Sys2Proof/Machine/Mover.lean ====
section
/-! DEFINITION. The mover (R90, R122, R139 to R141) and the Truss and sampler hooks (R143, R144, R206, R236). -/

namespace Sys2Proof.Machine

/-! ## Rack addresses (R7, R20, R274) -/

/-- The module's own index, where it holds a coordinate (R274, R290). -/
def State.ownIndex (s : State) : Option Nat :=
  let c := s.getN Obj.routeCoord 0
  if bits c 24 8 = 0 then none else some (bits c 0 8 + 4 * bits c 8 8 + 16 * bits c 16 8)

/-- Where a mover or COPY address leads: to this module's view, or to a module of the rack. -/
inductive Place where
  | here (a : Nat)
  | module (i a : Nat)
  deriving DecidableEq, Repr

/-- A rack address decoded; none where its module is not populated (R20). -/
def rackPlace (s : State) (a : Nat) : Option Place :=
  let i := bits a 42 6
  if s.ownIndex = some i then some (.here (bits a 0 42))
  else if bit (s.getN Obj.routePopulated 0) i then some (.module i (bits a 0 42)) else none

/-- Where a COPY's rack address leads (R20, R277): this module, a module of a rack, or nowhere; while ROUTE_POPULATED is 0 no other module
is reached (R317). -/
def rackEnd (s : State) (rack a : Nat) : Option Place :=
  if rack = s.getN Obj.routeRack 0 then rackPlace s a
  else if s.getN Obj.routePopulated 0 ≠ 0 ∧ s.ownIndex = some (bits a 42 6) ∧ 1 ≤ field (s.getB Obj.routeRackaxis 0) rack 1 ∧
      field (s.getB Obj.routeRackaxis 0) rack 1 ≤ 3 then
    some (.module (bits a 42 6) (bits a 0 42))
  else none

/-- An address of a transfer descriptor: bit 63 is its form (R139). -/
def moverPlace (s : State) (a : Dword) : Option Place :=
  if a.msb then rackPlace s a.toNat else some (.here a.toNat)

/-! ## MOVD (R139) -/

/-- The faults that the content of a transfer descriptor raises (R139). -/
def descriptorFault (d : Bytes) : Option Byte :=
  let len := field d 0x10 4
  let off := field d 0x14 4
  lowest
    [(descriptorIllegal d, illegalInstruction),
      (len % 4 != 0 || decide (len < 4) || decide (16777216 < len) || off % 4 != 0 || decide (0x1_8000 ≤ off), addressRange)]

/-- The transfer that a descriptor describes. -/
def transferOf (id : Nat) (d : Bytes) : Xfer :=
  { id, send := false, src := BitVec.ofNat 64 (field d 0 8), dst := BitVec.ofNat 64 (field d 8 8), len := field d 0x10 4,
    compOff := field d 0x14 4, compVal := BitVec.ofNat 32 (field d 0x18 4), fence := bit (field d 0x1C 2) 0 }

/-- MOVD: starts a transfer; a ninth outstanding one stalls (R90, R139). A descriptor at a misaligned offset, past the scratchpad or with an
uncorrectable word is not looked at (DESIGN CHOICE, log 121); with a false guard only its reserved fields and its completion value are (R100; log 119). -/
def execMovd (x : AtCore) (f : Fields) (s : State) : Host.Outcome State Fault Refusal :=
  let c := x.core
  let s := s.strike c x.found
  .next (issue .movd c f s fun k =>
    let a := (k.getG f.a).toNat
    if 8 ≤ k.xfers.length then .stall
    else match k.readFault a 32 16 with
      | some e => .fault e 0
      | none =>
        let d := readBytes k.scratch a 32
        .unless (descriptorFault d)
          (.step { k with xfers := k.xfers ++ [transferOf k.nextXfer d], nextXfer := k.nextXfer + 1 } 2))

/-! ## Transfers -/

/-- The outstanding transfer `id` of a core. -/
def Core.xfer (k : Core) (id : Nat) : Option Xfer := k.xfers.find? (·.id == id)
/-- A core with transfer `id` changed. -/
def Core.setXfer (k : Core) (x : Xfer) : Core := { k with xfers := k.xfers.map fun y => if y.id = x.id then x else y }

/-- What the address check of a transfer finds when it starts: R20, R48, R155, R414. -/
def startStatus (s : State) (p : Nat) (x : Xfer) : Byte :=
  let check (a : Dword) : Byte :=
    match moverPlace s a with
    | none => stNoRoute
    | some (.module _ _) => stOk
    | some (.here a) => if rangeOk s p a x.len fun _ => true then stOk else stRange
  if s.pstate p = psResetting then stFenced
  else
    let st := check x.src
    if st ≠ stOk then st else check x.dst

/-- TRANSFER_START: the mover starts a transfer, a fenced one once every earlier transfer of its core has written its
completion word, and checks its addresses (R139, R141). -/
def execTransferStart (c : Fin 8192) (id : Nat) (s : State) : Host.Outcome State Fault Refusal :=
  let k := s.core c
  .next (match k.xfer id, s.partOf (bayOf c) with
    | some x, some p =>
      if x.send ∨ x.started ∨ (x.fence ∧ k.xfers.any fun y => !y.send && decide (y.id < x.id)) then s
      else s.setCore c (k.setXfer { x with started := true, status := startStatus s p x })
    | _, _ => s)

/-- A page that an access which ended early may have reached: where it is unmapped, the access has taken a frame for it, or has not, by a free
value (R140, R192, R315; DESIGN CHOICE, log 159). -/
def touchPage (s : State) (p x page : Nat) : State :=
  if ((s.ctx x).frame page).isSome then s
  else
    let (n, s) := s.draw
    if n % 2 = 0 then s else (mapPage s p x page).1

/-- Free values in the destination bytes of a range of a partition's view: what a failed transfer or COPY leaves
undefined (R140, R312, R315). Pages that have no frame after it (log 159), and bytes outside the view, hold nothing to change. -/
def scramble (s : State) (p a n : Nat) : State :=
  (pieces4K a n).foldl (fun s (lo, m) =>
    let raw (s : State) (at_ : Nat) : State :=
      let (bs, s) := s.drawBytes m
      { s with mem := writeBytes s.mem at_ bs }
    match resolve s p lo with
    | none => s
    | some (.mem x) => raw s x
    | some (.span page off) =>
      match spanPage s p page with
      | .inl _ => s
      | .inr (x, lp) =>
        let s := touchPage s p x lp
        match (s.ctx x).frame lp with
        | some f => raw s (f * pageSize + off)
        | none => s
    | some (.scratch c off) =>
      let (bs, s) := s.drawBytes m
      let k := s.core c
      s.setCore c { k with scratch := writeBytes k.scratch off bs }
    | some (.buffer b off) =>
      let (bs, s) := s.drawBytes m
      let y := s.bay b
      s.setBay b { y with buffer := writeBytes y.buffer off bs }) s

/-- The bytes that a local move leaves at its destination, given the source bytes `bs` as they stood before it. A destination byte that lies in
the source too may keep its value, and one whose source byte lies in the destination may take what the mover wrote there: each is one of the
two values, and the rule does not say which (R141; log 123). -/
def overlapBytes (s : State) (src dst : Nat) (bs : Bytes) : Bytes × State :=
  let n := bs.length
  let within (a b : Nat) : Bool := decide (b ≤ a) && decide (a < b + n)
  if src = dst ∨ src + n ≤ dst ∨ dst + n ≤ src then (bs, s)
  else
    (bs.zipIdx.map fun (x, i) =>
      if Config.freeValue (s.free + i) % 2 = 0 then x
      else if within (dst + i) src then bs.getD (dst + i - src) x
      else if within (src + i) dst then bs.getD (src + i - dst) x
      else x, { s with free := s.free + n })

/-- The core learns a transfer's or a send's error: it faults before its next instruction, or at once where it waits at a
barrier or has halted. Of two errors before its next instruction it keeps the status of the first (R122; DESIGN CHOICE, log 151). -/
def Core.fail (k : Core) (st : Byte) : Core :=
  match k.run with
  | .running => { k with xferErr := some (k.xferErr.getD st) }
  | .atBarb _ | .atBard _ | .halted => k.fault transferError k.pc (st.setWidth 16)
  | _ => k

/-- A transfer of core `c` ends with a status: its completion word is written by read-modify-write, its error passed to the
core, and it is outstanding no longer (R122, R140). -/
def endTransfer (s : State) (c : Nat) (x : Xfer) (st : Byte) : State :=
  let k := s.core c
  let bad := k.badWords.contains (x.compOff / 16)
  let st := if bad then stData else st
  let v := if st = stOk then x.compVal.toNat else 0xFFFF_0000 + st.toNat
  let k := if bad then k else k.store x.compOff (leBytes 4 v)
  let k := { k with xfers := k.xfers.filter (·.id != x.id) }
  settle (s.setCore c (if st = stOk then k else k.fail st)) (bayOf c)

/-! ## The translation cache (R193, R194) -/

/-- The pages of the context span that a range touches. -/
def State.spanPages (s : State) (p a n : Nat) : List Nat :=
  let lo := s.plain p * gib
  ((List.range ((a + n + pageSize - 1) / pageSize - a / pageSize)).filterMap fun i =>
    let x := (a / pageSize + i) * pageSize
    if lo ≤ x ∧ x < s.quota p * gib then some ((x - lo) / pageSize) else none)

/-- A bay's slice of the translation cache serves an access to a span page: one that missed is served by its REFILL and is no hit; otherwise a hit is
counted; either makes the page's entry the most recently used; none where the page misses and its REFILL has not come. A page whose joist page is not
allocated has no burst to read and misses nothing (R188, R193, R194; DESIGN CHOICE, log 127). -/
def hitPage (s : State) (b p page : Nat) : Option State :=
  let y := s.bay b
  match spanPage s p page with
  | .inl _ => some s
  | .inr (x, lp) =>
    let entry := y.joist.find? fun e => e.part == p && e.page == page
    let used := match entry with
      | some e => install y.joist e
      | none => y.joist
    if y.misses.contains (p, page) then some (s.setBay b { y with joist := used, misses := y.misses.erase (p, page) })
    else if entry.isSome then some ((s.setBay b { y with joist := used }).count Obj.joistHits 0 64)
    else if (entryBursts s x lp).isNone then some s
    else none

/-- A bay's slice serves the span pages that an access touches, each once (R193). -/
def hitPages (s : State) (b p : Nat) (pages : List Nat) : Option State :=
  pages.eraseDups.foldl (fun r page => r.bind fun s => hitPage s b p page) (some s)

/-- Where a transfer's end lies in the module's own view. -/
def ownEnd (s : State) (a : Dword) : Option Nat :=
  match moverPlace s a with
  | some (.here a) => some a
  | _ => none

/-- The slice of a core's bay serves the local ends of a transfer that writes the module's own view; none while one of them misses, or waits for a
channel that is being retrained (R193, R194, R366). -/
def hitTransfer (s : State) (c p : Nat) (x : Xfer) : Option State :=
  let src := ownEnd s x.src
  let dst := ownEnd s x.dst
  if (src.any fun a => rangeWaits s p a x.len) || dst.any fun a => writeWaits s p a x.len then none
  else hitPages s (bayOf c) p ((src.toList ++ dst.toList).flatMap fun a => s.spanPages p a x.len)

/-- TRANSFER_COMPLETE: a started transfer whose remote bytes have all been answered for moves its bytes and ends; on an error
its destination bytes are undefined, but a transfer whose check failed at its start has had no effect (R28, R48, R140, R141). -/
def execTransferComplete (x : AtCore) (id : Nat) (s : State) : Host.Outcome State Fault Refusal :=
  let c := x.core
  let s := s.strike c x.found
  let k := s.core c
  .next (match k.xfer id, s.partOf (bayOf c) with
    | some x, some p =>
      let src := moverPlace s x.src
      let dst := moverPlace s x.dst
      let fails (s : State) (st : Byte) : State :=
        let s := match dst with
          | some (.here a) => scramble s p a x.len
          | _ => s
        endTransfer s c x st
      if x.send ∨ !x.started then s
      else if x.status ≠ stOk then (if x.next = 0 ∧ x.wnext = 0 then endTransfer s c x x.status else fails s x.status)
      else match src, dst with
      | _, some (.module _ _) => if x.warrived < x.len then s else endTransfer s c x stOk
      | some (.module _ _), some (.here b) =>
        if x.arrived < x.len then s
        else match hitTransfer s c p x with
        | none => s
        | some s =>
          let (s, st) := writeRange s p b x.data
          if st ≠ stOk then fails s st else endTransfer s c x stOk
      | some (.here a), some (.here b) =>
        match hitTransfer s c p x with
        | none => s
        | some s =>
          let (s, st, bs) := readRange 2 s p a x.len
          if st ≠ stOk then fails s st
          else
            let (bs, s) := overlapBytes s a b bs
            let (s, st) := writeRange s p b bs
            if st ≠ stOk then fails s st else endTransfer s c x stOk
      | _, _ => s
    | _, _ => s)

/-! ## Truss and sampler hooks (R143, R144) -/

/-- TCOLL: the 64-byte request at ga is posted; a bay that holds four keeps the issue slot (R143, R236). -/
def execTcoll (x : AtCore) (f : Fields) (s : State) : Host.Outcome State Fault Refusal :=
  let c := x.core
  let s := s.strike c x.found
  let y := s.bay (bayOf c)
  let a := ((s.core c).getG f.a).toNat
  .next (issue .tcoll c f s
    (fun k => if 4 ≤ y.posts.length then .stall else .unless (k.readFault a 64 16) (.step k 4))
    fun s =>
      let s := s.setBay (bayOf c) { y with posts := y.posts ++ [(c.val, readBytes (s.core c).scratch a 64)] }
      match s.partOf (bayOf c) with
      | some p => s.count Obj.trussPosted (p + 1) 64
      | none => s)

/-- A bay's slice descriptors go to their units, in order, while each unit has credit for the bay: 32 each (R206). -/
def sendSlices (s : State) (b : Nat) : State :=
  (s.bay b).slices.foldl (fun s d =>
    let y := s.bay b
    let u := d.ctx % 8
    if 32 ≤ look 0 y.suCredit u ∨ (y.slices.takeWhile (· != d)).any (fun e => e.ctx % 8 == u) then s
    else
      let s := s.setBay b { y with
        slices := y.slices.erase d, suCredit := put 0 y.suCredit u (look 0 y.suCredit u + 1) }
      s.setSu u { s.su u with descs := (s.su u).descs ++ [d] }) s

/-- LSEND: a slice descriptor goes to the unit of the context that gd names; a ninth outstanding send stalls. Its operands are checked at issue, the
words of the slice with them (R121, R144, R206; log 124). -/
def execLsend (x : AtCore) (f : Fields) (s : State) : Host.Outcome State Fault Refusal :=
  let c := x.core
  let s := s.strike c x.found
  let n := 16 * bits f.imm.toNat 0 13
  let fp32 := f.m.getLsbD 0
  let k := s.core c
  let a := (k.getG f.a).toNat
  let base := (k.getG f.b).toNat
  let len := n * (if fp32 then 4 else 2)
  .next (issue .lsend c f s
    (fun k =>
      if 8 ≤ k.xfers.length then .stall
      else .unless
        (lowest
          [(decide (scratchSize < a + len) || decide (262144 < base + n) || (fp32 && decide (1536 * 16 < n)), addressRange),
            (a % 16 != 0, misaligned), (k.badWords.any fun w => decide (a < 16 * w + 16) && decide (16 * w < a + len), dataError)])
        (.step { k with
          xfers := k.xfers ++ [{ id := k.nextXfer, send := true, src := 0, dst := 0, len, compOff := 0, compVal := 0, fence := false }]
          nextXfer := k.nextXfer + 1 }))
    fun s =>
      let b := bayOf c
      let d : SliceDesc :=
        { core := c, id := k.nextXfer, part := (s.bay b).part.toNat, ctx := bits (k.getG f.d).toNat 0 12, off := a, base,
          count := n, fp32, last := f.m.getLsbD 1 }
      sendSlices (s.setBay b { s.bay b with slices := (s.bay b).slices ++ [d] }) b)

end Sys2Proof.Machine
end

