-- ==== Sys2Proof/Machine/Sampler.lean ====
section
/-! DEFINITION. Sampler units and dovetail masks (R205 to R230). -/

namespace Sys2Proof.Machine

/-! ## Plain memory of a partition -/

/-- Bytes stored in a partition's plain memory as whole bursts, which never fails but on a channel whose retrain failed (R174, R217, R366). -/
def storePlain (s : State) (p a : Nat) (bs : Bytes) : State :=
  (pieces4K a bs.length).foldl (fun s (lo, m) =>
    match resolve s p lo with
    | some (.mem x) => if onFailedChannel s x m then s else storeMem s x (sub bs (lo - a) m)
    | _ => s) s

/-- Whether a range of a partition's plain memory touches a channel whose retrain failed (R366). -/
def plainRefused (s : State) (p a n : Nat) : Bool :=
  (pieces4K a n).any fun (lo, m) =>
    match resolve s p lo with
    | some (.mem x) => onFailedChannel s x m
    | _ => false

/-- The frames of the two copies of a context's record (R190). -/
def State.copies (s : State) (x : Nat) : Nat × Nat := ((s.ctx x).record).getD (0, 0)

/-- Whether a read or a write of a context's record waits for a channel that is being retrained, a copy being its whole frame (R366; log 131). -/
def recordWaits (s : State) (x : Nat) : Bool :=
  let (f, f') := s.copies x
  retraining s (f * pageSize) pageSize || retraining s (f' * pageSize) pageSize

/-! ## Grammars (R222, R223) -/

/-- The 16 bytes of a grammar's state. -/
def Grammar.entry (g : Grammar) (s : State) (p st : Nat) : Bytes := plainBytes s p (g.addr + g.stateOff + 16 * st) 16

/-- Whether a token lies in a base set. -/
def Grammar.inSet (g : Grammar) (s : State) (p set t : Nat) : Bool :=
  bit (field (plainBytes s p (g.addr + g.baseOff + 32768 * set + t / 8) 1) 0 1) (t % 8)

/-- The exceptions of a state's entry. -/
def Grammar.exceptions (g : Grammar) (s : State) (p : Nat) (e : Bytes) : List Nat :=
  let n := field e 2 2
  let bs := plainBytes s p (g.addr + g.excOff + 8 * field e 4 4) (8 * n)
  (List.range n).map fun i => field bs (8 * i) 8

/-- The next state after a token in a state, where the state allows it (R223). -/
def Grammar.step (g : Grammar) (s : State) (p st t : Nat) : Option Nat :=
  let e := g.entry s p st
  if g.vocab ≤ t then none
  else match (g.exceptions s p e).find? fun x => bits x 0 18 == t with
    | some x => if bit x 31 then none else some (bits x 32 16)
    | none =>
      let base := field e 0 1
      if base = 0xFE ∨ (base ≠ 0xFF ∧ g.inSet s p base t) then some (field e 8 2) else none

/-- A state's number, 0xFFFF_FFFF standing for the start state (R223). -/
def Grammar.state (g : Grammar) (st : Word) : Nat := if st = 0xFFFF_FFFF then g.start else st.toNat

/-- The state after a list of tokens, where each is allowed. -/
def Grammar.run (g : Grammar) (s : State) (p : Nat) : Nat → List Word → Option Nat
  | st, [] => some st
  | st, t :: ts =>
    match g.step s p st t.toNat with
    | some n => g.run s p n ts
    | none => none

/-- The grammar in a partition's slot. -/
def State.grammar (s : State) (p slot : Nat) : Option Grammar := look none (s.part p).grammars slot

/-- How a context stands with its grammar: none named, absent (R221), or present. -/
inductive Mask where
  | free
  | absent
  | by (g : Grammar)

/-- The grammar of a context (R221). -/
def State.maskOf (s : State) (x : Nat) : Mask :=
  let c := s.ctx x
  if c.params.grammar = 0xFF then .free
  else match s.grammar c.part c.params.grammar with
    | none => .absent
    | some g => if g.vocab ≠ c.params.vocab ∨ g.states ≤ g.state c.gstate then .absent else .by g

/-! ## Tokens of the running step (R217, R218) -/

/-- The token-table entry of a context in its partition's running step. -/
def State.token (s : State) (p x : Nat) : Option Token :=
  match (s.part p).step with
  | some r => r.tokens.find? (·.ctx == x)
  | none => none

/-- The state with a context's entry changed. -/
def State.setToken (s : State) (p : Nat) (t : Token) : State :=
  match (s.part p).step with
  | some r => s.setPart p { s.part p with
      step := some { r with tokens := r.tokens.map fun u => if u.ctx = t.ctx then t else u } }
  | none => s

/-- The bytes of an entry: the input fields as read at dispatch, and the outputs (R217). -/
def Token.bytes (t : Token) (accepting : Bool) (gstate : Word) : Bytes :=
  t.input.take 0x24 ++ leBytes 1 t.emitted.length ++ [t.status] ++ [if accepting then 1 else 0] ++ [0] ++
    leBytes 4 t.final.toNat ++ leBytes 4 t.logprob.toNat ++ leBytes 4 gstate.toNat ++ leBytes 4 t.nucleus.toNat ++
    leBytes 8 t.n0.toNat

/-- Where a token's entry lies in its step's table. -/
def entryAddr (s : State) (p : Nat) (t : Token) : Nat :=
  match (s.part p).step with
  | some r => r.table + 64 * t.slot
  | none => 64 * t.slot

/-- The token-table statuses (R217): OK, NO_TOKEN, INCOMPLETE, GRAMMAR_ABSENT, DATA_ERROR, pending. -/
def tsOk : Byte := 0x00
def tsNoToken : Byte := 0x01
def tsIncomplete : Byte := 0x02
def tsAbsent : Byte := 0x03
def tsData : Byte := 0x04
def tsPending : Byte := 0xFF

/-- Bursts that a read meets, noted where they are uncorrectable; the error that the event reports marks the first burst. Whether one of them cannot
be read: it is uncorrectable, or its channel's retrain failed (R174, R200, R366). -/
def meet (reader : Nat) (s : State) (bursts : List Nat) (e : Ecc) : State × Bool :=
  let s := match bursts.head? with
    | some b => if e = .uncorrectable then markBad s b else s
    | none => s
  let lost := bursts.any (unreadable s)
  let s := (bursts.filter s.bad.contains).foldl (fun s b => noteUncorrectable reader s (64 * b)) s
  let s := match e, bursts.head? with
    | .corrected, some b => noteCorrected s (64 * b)
    | _, _ => s
  (s, lost)

/-- Whether a commit waits for a channel that is being retrained: its entry, its record or its grammar's states lie in one (R366). -/
def commitWaits (s : State) (p : Nat) (t : Token) : Bool :=
  s.raising.retrain.isSome && (rangeWaits s p (entryAddr s p t) 64 || recordWaits s t.ctx ||
    match s.maskOf t.ctx with
    | .by g => rangeWaits s p (g.addr + g.stateOff) (16 * g.states)
    | _ => false)

/-- A commit's write of its entry, or of both copies of its record, meets a channel whose retrain failed: that write has no effect, the step ends with
DATA_ERROR, and a record that neither copy holds faults its context (R200, R366; DEDUCED, log 142). -/
def commitLost (s : State) (p : Nat) (t : Token) : State :=
  let (f, f') := s.copies t.ctx
  let entry := plainRefused s p (entryAddr s p t) 64
  let record := onFailedChannel s (f * pageSize) pageSize && onFailedChannel s (f' * pageSize) pageSize
  if !entry && !record then s
  else
    let s := if record then markFaulted s t.ctx else s
    match (s.part p).step with
    | some r => s.setPart p { s.part p with step := some { r with ends := if r.ends.contains stData then r.ends else r.ends ++ [stData] } }
    | none => s

/-- The bursts of the entry of a grammar's state. -/
def Grammar.entryBursts (g : Grammar) (s : State) (p st : Nat) : List Nat := plainBursts s p (g.addr + g.stateOff + 16 * st) 16

/-- The grammar of a context and the state that it reaches by emitted tokens; none where it has no grammar, or it is absent (R221, R223). -/
def State.reached (s : State) (p x : Nat) (emitted : List Word) : Option (Grammar × Nat) :=
  match s.maskOf x with
  | .by g => (g.run s p (g.state (s.ctx x).gstate) emitted).map (g, ·)
  | _ => none

/-- A sequence is closed, and its entry written (R217). -/
def closeEntry (s : State) (p : Nat) (t : Token) (accepting : Bool) (gstate : Word) : State :=
  storePlain (s.setToken p { t with closed := true }) p (entryAddr s p t) (t.bytes accepting gstate)

/-- The record after a commit: N, the history ring, and the grammar state that the emitted tokens reach (R218, R220). -/
def advance (s : State) (t : Token) (gstate : Word) : State :=
  let c := s.ctx t.ctx
  let ring := c.ring ++ t.emitted
  s.setCtx t.ctx { c with
    n := t.n0 + BitVec.ofNat 64 t.emitted.length, ring := ring.drop (ring.length - 4096),
    gstate := if t.emitted.isEmpty then c.gstate else gstate }

/-- A commit that cannot read whether the state it reaches is accepting: its row is not sampled, so the entry closes with DATA_ERROR and without a
token, the record stays, and the accepting flag is a free value (R200, R228; DEDUCED, log 198). -/
def commitUnread (s : State) (p : Nat) (t : Token) (gstate : Nat) : State :=
  let s := if t.status = tsData then s else s.note (some p) .grammarBad [t.ctx]
  let (v, s) := s.draw
  commitLost (closeEntry s p { t with status := tsData, emitted := [], final := 0 } (v % 2 == 1) (BitVec.ofNat 32 gstate)) p t

/-- COMMIT: the unit closes a sequence and writes its entry, then its record: N, the history ring and the grammar state
(R217, R218, R220). Whether the state it reaches is accepting it reads from that state's entry, with reader kind 4 (R200, R222; DEDUCED, log 198).
Where the closing row drew no token, log-probability and nucleus size are those of the last row that did, 0 where none has
(DESIGN CHOICE, log 181). Offset 0x30 gives the state that the grammar has reached as a number, also where nothing was emitted and also for its start
state, and 0xFFFF_FFFF where the context has no grammar or it is absent (DESIGN CHOICE, log 182). -/
def commit (s : State) (p : Nat) (t : Token) (status : Byte) (emitted : List Word) (final : Word) : State :=
  let t := { t with status, emitted, final }
  match s.reached p t.ctx emitted with
  | none => commitLost (advance (closeEntry s p t false 0xFFFF_FFFF) t (s.ctx t.ctx).gstate) p t
  | some (g, st) =>
    let (s, lost) := meet 4 s (g.entryBursts s p st) .clean
    if lost then commitUnread s p t (g.state (s.ctx t.ctx).gstate)
    else
      let gs := BitVec.ofNat 32 st
      commitLost (advance (closeEntry s p t (bit (field (g.entry s p st) 1 1) 0) gs) t gs) p t

/-- Every sequence of a step that has not closed when the step ends is closed as INCOMPLETE with its accepted drafts (R210,
R218, R228). -/
def closeAll (s : State) (p : Nat) : State :=
  match (s.part p).step with
  | none => s
  | some r =>
    r.tokens.foldl (fun s t =>
      if t.closed then s
      else
        let ds := t.drafts.take t.rowsDone
        commit s p t tsIncomplete ds (ds.getLastD 0)) s

/-! ## From logits to a token (R212 to R215) -/

/-- The largest finite FP32 magnitude with the sign of an overflow. -/
def saturate (x : Word) : Word :=
  match fp32 x with
  | .inf neg => if neg then 0xFF7F_FFFF else 0x7F7F_FFFF
  | _ => x

/-- z of a logit whose token is allowed, in or out of H (R212); none where the logit is NaN or −infinity. -/
def penalised (q : Params) (inH : Bool) (x : Word) : Option Word :=
  match fp32 x with
  | .nan | .inf true => none
  | _ =>
    let x := saturate x
    let x := if inH then
        let y := if (Num.fin 0 0).lt (fp32 x) then saturate (fdiv x q.rho) else saturate (fmul x q.rho)
        saturate (fsub y q.alpha)
      else x
    some (if (Num.fin 0 0).lt (fp32 q.temp) then saturate (fdiv x q.temp) else x)

/-- Whether a candidate ranks above another: greater z, or an equal z and a lower index (R213). -/
def above (a b : Nat × Word) : Bool :=
  (fp32 b.2).lt (fp32 a.2) || (!(fp32 a.2).lt (fp32 b.2) && decide (a.1 < b.1))

/-- A candidate put into its place in rank order. -/
def rank (a : Nat × Word) : List (Nat × Word) → List (Nat × Word)
  | [] => [a]
  | b :: bs => if above a b then a :: b :: bs else b :: rank a bs

/-- The square root of a number below 4^n, rounded down, from the root of its upper part. -/
def isqrt (x : Nat) : Nat → Nat → Nat
  | 0, r => r
  | n + 1, r => isqrt x n (if (r + 2 ^ n) * (r + 2 ^ n) ≤ x then r + 2 ^ n else r)

/-- A product of roots of 2, one for each 1 among the low `n` bits of a fraction: bit n − 1 takes the square root of `root`, and so on, all in units of
2^−64. -/
def rootProduct (f : Nat) : (n : Nat) → (root acc : Nat) → Nat
  | 0, _, acc => acc
  | n + 1, root, acc =>
    let root := isqrt (root * 2 ^ 64) 65 0
    rootProduct f n root (if bit f n then acc * root / 2 ^ 64 else acc)

/-- 2^f in units of 2^−64, from the 40 leading bits of a fraction f in units of 2^−149. -/
def twoPow (f : Nat) : Nat := rootProduct (f / 2 ^ 109) 40 (2 ^ 65) (2 ^ 64)

/-- The polynomial of a fraction f for 2^f, in units of 2^−23: a fixed one with a relative error below 1.5 × 10⁻⁷, where it has it; else 2^f itself,
rounded (R214; DESIGN CHOICE, log 20). -/
def exp2Poly (f : Nat) : Nat :=
  let v : Int := twoPow f
  let p := Config.exp2 f
  if 10 ^ 10 * (p * 2 ^ 41 - v).natAbs ≤ 1499 * twoPow f then p else (twoPow f + 2 ^ 40) / 2 ^ 41

/-- w of a candidate: 2^y as 2^floor(y) times the polynomial of y's fraction, 0 below 2^−149 (R214). -/
def weightOf (z1 z : Word) : Word :=
  match fp32 (fmul (fsub z z1) 0x3FB8_AA3B) with
  | .fin m e =>
    let y := floorOf m (e + 149)
    if 0 ≤ y then 0x3F80_0000
    else if y / 2 ^ 149 < -149 then 0
    else toFp32 (.fin (exp2Poly (y % 2 ^ 149).toNat) (y / 2 ^ 149 - 23)) false
  | .inf true => 0
  | _ => 0x3F80_0000

/-- Running sums S, in ascending order (R214). -/
def runningSums : Word → List Word → List Word
  | _, [] => []
  | acc, w :: ws => let a := fadd acc w; a :: runningSums a ws

/-- The token that candidates in rank order give, with the nucleus size j and the log-probability to report; none where
there is no candidate (R214, R215). -/
def drawToken (q : Params) (n : Dword) (cs : List (Nat × Word)) : Option (Word × Nat × Word) :=
  match cs with
  | [] => none
  | (t1, z1) :: _ =>
    let cs := if q.topK = 0 then cs else cs.take q.topK
    if (fp32 q.temp).eq (.fin 0 0) then some (BitVec.ofNat 32 t1, 1, 0)
    else
      let ws := match cs with
        | [] => []
        | _ :: rest => (0x3F80_0000 : Word) :: rest.map fun c => weightOf z1 c.2
      let ss := match ws with
        | [] => []
        | w :: rest => w :: runningSums w rest
      let m := cs.length
      let j := if (fp32 q.topP).lt (.fin 1 0) then
          let goal := fmul q.topP (ss.getD (m - 1) 0)
          match ss.findIdx? fun x => !(fp32 x).lt (fp32 goal) with
          | some i => i + 1
          | none => m
        else m
      let w0 := philox (n.setWidth 32) ((n >>> 32).setWidth 32) 0 0x5341_4D50 (q.seed.setWidth 32)
        ((q.seed >>> 32).setWidth 32) 0
      let u := toFp32 (.fin (w0.toNat / 256 : Nat) (-24)) false
      let sj := ss.getD (j - 1) 0
      let tau := fmul u sj
      let k := match (ss.take j).findIdx? fun x => (fp32 tau).lt (fp32 x) with
        | some i => i
        | none => j - 1
      some (BitVec.ofNat 32 (cs.getD k (0, 0)).1, j, if q.report then Config.logProb (ws.getD k 0) sj else 0)

/-- The candidates of a row: its 1,024 highest z in rank order (R212, R213). -/
def candidates (s : State) (p : Nat) (e : Engine) (t : Token) : List (Nat × Word) :=
  let c := s.ctx e.ctx
  let q := c.params
  let hist := c.ring ++ t.drafts.take e.row
  let h := hist.drop (hist.length - q.window)
  let mask : Nat → Bool := match s.maskOf e.ctx with
    | .by g =>
      match g.run s p (g.state c.gstate) (t.drafts.take e.row) with
      | some st => fun i => (g.step s p st i).isSome
      | none => fun _ => false
    | _ => fun _ => true
  let all := e.logits.filterMap fun (i, x) =>
    match x with
    | none => none
    | some x => if mask i then (penalised q (h.contains (BitVec.ofNat 32 i)) x).map (i, ·) else none
  (all.foldl (fun cs c => (rank c cs).take 1024) [])

/-! ## Row engines (R207 to R210, R225) -/

/-- Whether a row has all its logits. -/
def Engine.whole (e : Engine) (v : Nat) : Bool := decide (v ≤ e.count)

/-- The rows of a context that have not been finished: in the unit's engines and spilled. -/
def rowsOfCtx (s : State) (u x : Nat) : List Engine :=
  ((s.su u).engines.filter (·.ctx == x)) ++ (match (s.ctx x).spill with
    | some e => [e]
    | none => [])

/-- What a unit does with a descriptor. -/
inductive Served where
  /-- its row's engine is loading, or no engine is free: later descriptors go ahead of it -/
  | hold
  /-- an engine begins to load for its row, or its spilled row is restored -/
  | change (s : State)
  /-- it ends with a status, without being read -/
  | refuse (st : Byte)
  /-- it is read, into a row or to be discarded -/
  | intake (row : Option Nat)

/-- An engine made free for a row: the unit has four, and spills the least recently used one (R207). While that one loads, or has all its logits and is
being finished, none is free (DESIGN CHOICE, log 199). The engine of an unfinished row whose sequence has closed is one like the others: it stays until
the step ends, and may be spilled and counted (DESIGN CHOICE, log 192). -/
def freeEngine (s : State) (u : Nat) : Option State :=
  let x := s.su u
  if x.engines.length < 4 then some s
  else match x.engines.getLast? with
    | none => none
    | some e =>
      if e.mask = .loading ∨ e.whole (s.ctx e.ctx).params.vocab ∨ (s.ctx e.ctx).spill.isSome then none
      else
        let s := s.setSu u { x with engines := x.engines.erase e }
        some ((s.setCtx e.ctx { s.ctx e.ctx with spill := some e }).count Obj.sampSpills (u + 1) 64)

/-- What a unit does with a descriptor that it may serve (R207 to R210). -/
def judge (s : State) (u : Nat) (d : SliceDesc) : Served :=
  let c := s.ctx d.ctx
  let v := c.params.vocab
  match s.token d.part d.ctx with
  | none => .refuse stRange
  | some t =>
    if c.part ≠ d.part ∨ c.state ≠ .active ∨ v < d.base + d.count then .refuse stRange
    else
      let rows := rowsOfCtx s u d.ctx
      let whole := rows.filter (·.whole v)
      let idx := t.rowsDone + whole.length
      let ended := whole.any fun e => e.last || decide (t.drafts.length ≤ e.row)
      if t.closed ∨ ended then .intake none
      else match rows.find? fun e => !e.whole v with
        | some e =>
          if (List.range d.count).any fun i => (look none e.logits (d.base + i)).isSome then .refuse stRange
          else if c.spill = some e then
            match freeEngine s u with
            | none => .hold
            | some s =>
              let s := s.setCtx d.ctx { s.ctx d.ctx with spill := none }
              .change (s.setSu u { s.su u with engines := e :: (s.su u).engines })
          else if e.mask = .loading then .hold
          else .intake (some e.row)
        | none =>
          if t.drafts.length < idx then .refuse stRange
          else match freeEngine s u with
            | none => .hold
            | some s =>
              let e : Engine := { part := d.part, ctx := d.ctx, row := idx, logits := [], count := 0, last := false, mask := .loading }
              .change (s.setSu u { s.su u with engines := e :: (s.su u).engines })

/-- A descriptor leaves a unit's queue, and its bay's credit returns (R206). -/
def leave (s : State) (u : Nat) (d : SliceDesc) : State :=
  let s := s.setSu u { s.su u with descs := (s.su u).descs.erase d }
  let b := bayOf d.core
  let y := s.bay b
  sendSlices (s.setBay b { y with suCredit := put 0 y.suCredit u (look 0 y.suCredit u - 1) }) b

/-- An uncorrectable logit leaves its sequence uncommitted: the unit takes it as closed, and its entry stays as it is (R220, R228). So it does where the
logit lies in a slice that is only discarded, while the sequence's last row has all its logits and is not yet finished (DESIGN CHOICE, log 194). -/
def loseSequence (s : State) (p x : Nat) : State :=
  match s.token p x with
  | some t => s.setToken p { t with closed := true }
  | none => s

/-- A logit send ends with a status (R122, R144). -/
def endSend (s : State) (d : SliceDesc) (st : Byte) : State :=
  let k := s.core d.core
  if k.xfers.any fun x => x.id == d.id && x.send then
    let k := { k with xfers := k.xfers.filter (·.id != d.id) }
    settle (s.setCore d.core (if st = stOk then k else k.fail st)) (bayOf d.core)
  else s

/-- The logits of a slice, widened to FP32 (R144, R212). -/
def sliceLogits (k : Core) (d : SliceDesc) : List Word :=
  (List.range d.count).map fun i =>
    if d.fp32 then BitVec.ofNat 32 (readNum k.scratch (d.off + 4 * i) 4)
    else BitVec.ofNat 32 (readNum k.scratch (d.off + 2 * i) 2 * 2 ^ 16)

/-- Logits received by the engine of a row, which becomes the most recently used (R207). -/
def receive (x : Su) (d : SliceDesc) (row : Nat) (ls : List Word) : Su :=
  match x.engines.find? fun e => e.ctx == d.ctx && e.row == row with
  | none => x
  | some e =>
    { x with engines := { e with
        logits := blit none e.logits d.base (ls.map some), count := e.count + d.count, last := e.last || d.last } ::
        x.engines.erase e }

/-- The MESH cycles that a slice takes: 1,024 bytes a cycle (R42, R226). -/
def SliceDesc.cycles (d : SliceDesc) : Nat := (d.count * (if d.fp32 then 4 else 2) + 1023) / 1024

/-- Whether an engine of a unit holds the row that a context's next slice belongs to, and has loaded (R207). -/
def State.rowLoaded (s : State) (u x : Nat) : Bool :=
  (s.su u).engines.any fun e => e.ctx == x && e.mask != .loading && !e.whole (s.ctx x).params.vocab

/-- The first of some descriptors that the unit can serve is served; while one waits for its row's engine, or for one to be free, later ones of other
sequences go ahead where their rows are already loaded, and wait with it where they are not; none where all of them wait (R207, R208, R227). An
uncorrectable logit ends its send with DATA_ERROR also in a slice that is discarded (R208, R228; DESIGN CHOICE, log 193). -/
def serveSlices (s : State) (u : Nat) : List SliceDesc → List Nat → Option State
  | [], _ => none
  | d :: ds, held =>
    if held.contains d.ctx ∨ (held ≠ [] ∧ !s.rowLoaded u d.ctx) then serveSlices s u ds (d.ctx :: held)
    else match judge s u d with
      | .hold => serveSlices s u ds (d.ctx :: held)
      | .change s => some s
      | .refuse st => some (endSend (leave s u d) d st)
      | .intake row =>
        let k := s.core d.core
        let n := d.count * (if d.fp32 then 4 else 2)
        let x := s.su u
        let s := s.setSu u { x with spent := put 0 x.spent d.part (look 0 x.spent d.part + d.cycles) }
        if (wordsIn d.off n).any k.badWords.contains then some (endSend (loseSequence (leave s u d) d.part d.ctx) d stData)
        else
          let s := match row with
            | some r => s.setSu u (receive (s.su u) d r (sliceLogits k d))
            | none => s
          some (endSend (leave s u d) d stOk)

/-- The partitions that have descriptors queued in a unit, in ascending order. -/
def Su.queued (x : Su) : List Nat := (List.range 8).filter fun p => x.descs.any (·.part == p)

/-- A unit whose intake the partitions queued now share: where they are others than before, each starts at no cycles (R227; log 128). -/
def Su.shared (x : Su) : Su := if x.queued = x.sharers then x else { x with sharers := x.queued, spent := [] }

/-- A partition put into its place among others: the one that has had the fewest intake cycles for its SAMP_SHARE goes first (R227). -/
def byShare (s : State) (x : Su) (p : Nat) : List Nat → List Nat
  | [] => [p]
  | q :: qs =>
    if look 0 x.spent p * s.getN Obj.sampShare (q + 1) < look 0 x.spent q * s.getN Obj.sampShare (p + 1) then p :: q :: qs
    else q :: byShare s x p qs

/-- SLICE_DESCRIPTOR: a unit serves a descriptor: an engine begins to load, a row is restored, or the logits are read; a
check that fails ends the send with ADDRESS_RANGE, an uncorrectable logit with DATA_ERROR. Partitions share the unit by SAMP_SHARE, and one
whose descriptors all wait lets the next go ahead (R206 to R210, R227, R228). -/
def execSliceDescriptor (u : Fin 8) (s : State) : Host.Outcome State Fault Refusal :=
  let x := (s.su u).shared
  let s := s.setSu u x
  let order := x.queued.foldl (fun l p => byShare s x p l) []
  .next ((order.findSome? fun p => serveSlices s u (x.descs.filter (·.part == p)) []).getD s)

/-- Whether a sequence of a partition's step that is still open waits to commit (R366). -/
def closeWaits (s : State) (p : Nat) : Bool :=
  match (s.part p).step with
  | none => false
  | some r => !r.cancelled && r.tokens.any fun t => !t.closed && commitWaits s p t

/-- A grammar's bursts that a row's engine reads: its state's entry, its exceptions and, where the mask cache has no copy, its
base bitmap (R225). -/
def maskBursts (s : State) (u p x : Nat) (g : Grammar) (st : Nat) : List Nat × Option (Nat × Nat × Nat) :=
  let e := g.entry s p st
  let n := field e 2 2
  let base := field e 0 1
  let slot := (s.ctx x).params.grammar
  let key := (p, slot, base)
  let first := g.entryBursts s p st ++
    (if n = 0 then [] else plainBursts s p (g.addr + g.excOff + 8 * field e 4 4) (8 * n))
  if base < g.bases then
    (first ++ (if (s.su u).masks.contains key then [] else plainBursts s p (g.addr + g.baseOff + 32768 * base) 32768), some key)
  else (first, none)

/-- What the engine of a row reads of its grammar: no burst where the row has no mask, or no state that its drafts lead to; and the base bitmap that
the mask cache is to hold (R221, R225). -/
def maskReads (s : State) (u : Nat) (e : Engine) : List Nat × Option (Nat × Nat × Nat) :=
  match s.maskOf e.ctx, s.token e.part e.ctx with
  | .by g, some t =>
    match g.run s e.part (g.state (s.ctx e.ctx).gstate) (t.drafts.take e.row) with
    | some st => maskBursts s u e.part e.ctx g st
    | none => ([], none)
  | _, _ => ([], none)

/-- An engine of a unit whose loading has ended. -/
def setMask (s : State) (u : Nat) (e : Engine) (m : RowMask) : State :=
  s.setSu u { s.su u with engines := (s.su u).engines.map fun d => if d = e then { d with mask := m } else d }

/-- A base bitmap becomes the most recently used of a unit's mask cache, which holds 8 (R225). -/
def cacheMask (s : State) (u : Nat) : Option (Nat × Nat × Nat) → State
  | some k => s.setSu u { s.su u with masks := (k :: (s.su u).masks.erase k).take 8 }
  | none => s

/-- The engine of a row has read its record, and reads its row's mask (R221, R225, R228). -/
def loadMask (s : State) (u : Nat) (e : Engine) (grammar : Ecc) : State :=
  match s.maskOf e.ctx with
  | .absent => setMask s u e .absent
  | _ =>
    let (bs, key) := maskReads s u e
    let (s, bad) := meet 4 s bs grammar
    if bad then setMask (s.note (some e.part) .grammarBad [e.ctx]) u e .grammarError else setMask (cacheMask s u key) u e .ok

/-- Both copies of a row's record are unreadable: the context is FAULTED, and its entry takes DATA_ERROR (R200, R228). -/
def loseRecord (s : State) (u : Nat) (e : Engine) : State :=
  let s := markFaulted s e.ctx
  match s.token e.part e.ctx with
  | some t => setMask (if t.closed then s else commit s e.part t tsData [] 0) u e .recordError
  | none => setMask s u e .recordError

/-- ENGINE_LOADED: a row engine has read its context's record and its row's mask: an uncorrectable record copy is read from the other; two
fault the context, and its entry takes DATA_ERROR; an uncorrectable grammar read leaves the row unsampled (R200, R207, R221, R225, R228). The copy that
is read first is the first of the pair (DESIGN CHOICE, log 195). `record`
and `grammar` are what the error code finds in the two reads, a record copy being its whole frame (log 131). A bad burst of either has reader kind 4,
the sampler unit's, of the record too (R200; DESIGN CHOICE, log 180). A read of a channel that is being retrained waits (R366). -/
def execEngineLoaded (u : Fin 8) (x : Fin 4096) (record grammar : Ecc) (s : State) :
    Host.Outcome State Fault Refusal :=
  .next (match (s.su u).engines.find? fun e => e.ctx == x.val && e.mask == .loading with
    | none => s
    | some e =>
      let (f, f') := s.copies x
      let frameBursts (f : Nat) : List Nat := (List.range 1024).map (1024 * f + ·)
      let waits := recordWaits s x || (maskReads s u e).1.any (fun b => retraining s (64 * b) 64) ||
        (match s.token e.part x with
        | some t => commitWaits s e.part t
        | none => false)
      if waits then s else
      let (s, bad) := meet 4 s (frameBursts f) record
      let (s, bad') := if bad then
          meet 4 (s.note (some e.part) .recordCopy [x.val]) (frameBursts f') .clean
        else (s, false)
      if bad && bad' then loseRecord s u e else loadMask s u e grammar)

/-- The first of a context's whole rows that a unit's engines hold (R218). -/
def firstWhole (x : Su) (ctx v : Nat) : Option Engine :=
  (x.engines.filter fun e => e.ctx == ctx && e.mask != .loading && e.whole v).foldl (fun m e =>
    match m with
    | some d => if e.row < d.row then some e else m
    | none => some e) none

/-- ROW_COMPLETE: the first of a sequence's rows with all V logits is finished into a token, which is compared with its draft; the sequence closes at
a difference, at row n, at a last mark, or where the row cannot be sampled, which it learns once all of the row's logits have come (R210, R214, R218,
R221, R225, R228; DESIGN CHOICE, log 162). An entry that closes with GRAMMAR_ABSENT or DATA_ERROR has no emitted token, and final token 0 (DESIGN
CHOICE, log 183); the engine of a later row of the sequence stays until the step ends (DESIGN CHOICE, log 192). SAMP_ROWS counts the rows that are
drawn from, with a token or without (R230; DEDUCED, log 163). A commit to a channel that is being retrained waits (R366). -/
def execRowComplete (u : Fin 8) (x : Fin 4096) (s : State) : Host.Outcome State Fault Refusal :=
  let v := (s.ctx x).params.vocab
  .next (match firstWhole (s.su u) x v with
    | none => s
    | some e =>
      let p := e.part
      let waits : Bool := match s.token p x with
        | some t => !t.closed && commitWaits s p t
        | none => false
      if waits then s else
      let s := s.setSu u { s.su u with engines := (s.su u).engines.erase e }
      match s.token p x with
      | none => s
      | some t =>
        let i := e.row
        let ds := t.drafts.take i
        if t.closed then s
        else match e.mask with
          | .absent => commit s p t tsAbsent [] 0
          | .grammarError | .recordError => commit s p t tsData [] 0
          | _ =>
            let s := s.count Obj.sampRows (u + 1) 64
            match drawToken (s.ctx x).params (t.n0 + BitVec.ofNat 64 i) (candidates s p e t) with
            | none => commit (s.count Obj.sampNotoken (p + 1)) p t tsNoToken ds (ds.getLastD 0)
            | some (tok, j, lp) =>
              let t := { t with nucleus := BitVec.ofNat 32 j, logprob := lp, rowsDone := i + 1 }
              if t.drafts[i]? = some tok then
                if e.last then commit s p t tsOk (ds ++ [tok]) tok else s.setToken p t
              else commit s p t tsOk (ds ++ [tok]) tok)

end Sys2Proof.Machine
end

