-- ==== Sys2Proof/Machine/Reset.lean ====
section
/-! DEFINITION. Stopping a running step (R108, R110, R411, R413), closing contexts (R198, R318), stopping a COPY (R315) and
resets of a partition (R407, R414 to R418). -/

namespace Sys2Proof.Machine

/-! ## Contexts (R196 to R198) -/

/-- Every frame that a context holds: its pages', its joist pages' and its record's (R190). -/
def Ctx.frames (c : Ctx) : List Nat :=
  (c.pages.map fun e => e.2 - 1) ++ (c.joistPages.flatMap fun e => [e.2.1, e.2.2]) ++
    (match c.record with
    | some (a, b) => [a, b]
    | none => [])

/-- The span pages of a slot's window (R187). -/
def State.windowOf (s : State) (p slot page : Nat) : Bool :=
  let w := s.getN Obj.partWinpages (p + 1)
  decide (slot * w ≤ page) && decide (page < (slot + 1) * w)

/-- A slot's window is unbound: its entries leave the translation cache (R195). -/
def unbindWindow (s : State) (p slot : Nat) : State := dropJoist s p (s.windowOf p slot)

/-- A context reaches FREE: its frames wait for the scrub of their controllers, and PART_FRAMES_USED counts them no longer (R198, R318; DESIGN CHOICE,
log 189). -/
def closeCtx (s : State) (x : Nat) : State :=
  let c := s.ctx x
  let p := c.part
  let s := c.frames.foldl (fun s f =>
    let n := (placeOf s (f * pageSize)).1
    s.setMc n { s.mc n with scrub := (s.mc n).scrub ++ [f] }) s
  (s.setCtx x {}).setN Obj.partFramesUsed (p + 1) (s.getN Obj.partFramesUsed (p + 1) - c.frames.length)

/-! ## COPY commands that end early (R315) -/

/-- Free values in the bytes of a context's pages, from a logical byte; any frame that the COPY took stays mapped (R192, R315; log 159). -/
def scrambleCtx (s : State) (p x a n : Nat) : State :=
  (pieces4K a n).foldl (fun s (lo, m) =>
    let s := touchPage s p x (lo / pageSize)
    match (s.ctx x).frame (lo / pageSize) with
    | some f =>
      let (bs, s) := s.drawBytes m
      { s with mem := writeBytes s.mem (f * pageSize + lo % pageSize) bs }
    | none => s) s

/-- The destination of a started COPY is undefined (R315). -/
def spoilCopy (s : State) (p : Nat) (c : Cmd) : State :=
  let dst := c.at 0x18 8
  let n := c.at 0x20 4
  match c.at 0x25 1 with
  | 0 => scramble s p dst n
  | 1 =>
    match s.owner p with
    | some port =>
      let (bs, s) := s.drawBytes n
      s.send (.hostWrite port (BitVec.ofNat 64 dst) bs)
    | none => s
  | 2 => scrambleCtx s p (c.at 0x2A 2) dst n
  | _ =>
    match rackEnd s (c.at 0x26 1) dst with
    | some (.here a) => scramble s p a n
    | _ => s

/-- Whether a command is a started COPY. -/
def Cmd.copying (c : Cmd) : Bool :=
  match c.phase with
  | .copying _ _ _ _ => true
  | _ => false

/-- Every started COPY of a partition stops (R418). -/
def spoilCopies (s : State) (p : Nat) : State :=
  (s.cmdsOf p).foldl (fun s (_, c) => if c.copying then spoilCopy s p c else s) s

/-! ## Stopping a step -/

/-- The firmware stops a partition's step: its cores stop, its streams are cancelled, the ending is noted with the faults of
its cores, and what the step has written in scratchpads is undefined where a core has faulted (R108 to R110, R166). While no firmware
serves, the ending is noted and the stop waits (R256, R376). -/
def stopStep (s : State) (p : Nat) (ends : List Byte) : State :=
  match (s.part p).step with
  | none => s
  | some r =>
    let data := r.dataErr || s.spoiled p
    if !s.serving then s.setPart p { s.part p with step := some { r with held := true, ends := joinEnds r.ends ends, dataErr := data } }
    else
    let fs := s.coreFaults p
    let s := if fs.isEmpty then s else (s.baysOf p).foldl loseWritten s
    let s := cancelStreams ((s.baysOf p).foldl stopBay s) p
    let new := (fs.map CoreFault.status) ++ ends
    s.setPart p { s.part p with step := some { r with
      phase := .stopping, held := false, faults := r.faults ++ fs, ends := joinEnds r.ends new, dataErr := data } }

/-- The stops that have waited for the firmware (R256, R376). -/
def resumeStops (s : State) : State :=
  upTo 8 (fun p s => match (s.part p).step with
    | some r => if r.held then stopStep s p [] else s
    | none => s) s

/-- The rows of a partition's step are cancelled, and its open sequences stay uncommitted (R220, R228). -/
def cancelRows (s : State) (p : Nat) : State :=
  let s := dropRows s p
  match (s.part p).step with
  | some r => s.setPart p { s.part p with step := some { r with cancelled := true } }
  | none => s

/-- A step whose read met an uncorrectable error ends with DATA_ERROR (R110, R166). -/
def stopData (s : State) (p : Nat) : State := stopStep s p [stData]

/-! ## The end of a step -/

/-- The bays of a partition after a step: cores stopped, every slot EMPTY (R99, R117). -/
def restBay (s : State) (b : Nat) : State :=
  let s := (coresOf b).foldl (fun s c =>
    let k := s.core c
    s.setCore c { k with run := .off, slot0 := {}, slot1 := {}, tq := [], xfers := [], xferErr := none }) s
  s.setBay b { s.bay b with token := none, release := none, loaded := false, posts := [], slices := [] }

/-- A step ends: its rows, streams and cores come to rest, its contexts return and its completion becomes due. -/
def endStep (s : State) (p : Nat) (r : StepRun) : State :=
  let cpl := stepCpl s p r
  let s := recordFault (settleCtxs s r) p r
  let s := (s.baysOf p).foldl restBay (dropRows (cancelStreams s p) p)
  let s := s.setPart p { s.part p with step := none }
  finish s r.queue r.seq cpl

/-! ## Resets of a partition (R414 to R418) -/

/-- A partition's requests are given up: their reply reservations are free and their tags quarantined (R416). -/
def tagRequests (s : State) (p : Nat) : State :=
  let mine := s.net.requests.filter (·.part == p)
  let s := mine.foldl (fun s r =>
    { s with net := { s.net with
      pools := put 0 s.net.pools r.station (look 0 s.net.pools r.station - r.flits),
      quarantine := s.net.quarantine ++ [r.tag] } }) s
  { s with net := { s.net with requests := s.net.requests.filter (·.part != p) } }

/-- PART_GEN advances (R417). `gens` remembers the values that were current, and until when. -/
def advanceGen (s : State) (p : Nat) : State :=
  let g := s.getN Obj.partGen (p + 1)
  let y := s.part p
  (s.setPart p { y with gens := (g, s.clock.up) :: y.gens.filter (·.1 != g) }).setN Obj.partGen (p + 1) ((g + 1) % 4096)

/-- The Stop phase of R418: cores, streams, collectives, rows, COPYs and accepted commands. -/
def stopPart (s : State) (p : Nat) : State :=
  let s := (s.baysOf p).foldl stopBay (abortStep s p)
  let s := spoilCopies (cancelColls (dropRows (cancelStreams s p) p) p) p
  let s := endCmds s p stAborted
  s.setPart p { s.part p with step := none, boundary := none }

/-- ACTIVE contexts become BOUND, and a CLOSING one reaches FREE (R318, R425). -/
def calmCtxs (s : State) (p : Nat) : State :=
  (s.ctxsOf p).foldl (fun s x =>
    let c := s.ctx x
    match c.state with
    | .active => s.setCtx x { c with state := .bound }
    | .closing => closeCtx s x
    | _ => s) s

/-- A partition that was in state `before` begins a reset, for the reason `why` of PART_RESET_WHY: its work stops, its bays are reset, its generation
advances, and JOB_WAIT is set where it has a job (R407, R415 to R418, R420). -/
def startReset (s : State) (p why before : Nat) : State :=
  let s := (stopPart ((claimBays s p).setPstate p psResetting) p).setN Obj.partResetWhy (p + 1) why
  let s := if s.getN Obj.partEdge (p + 1) = 1 then tagRequests s p else s
  let s := dropJoist (calmCtxs ((s.baysOf p).foldl resetBay s) p) p fun _ => true
  let s := advanceGen s p
  let s := if s.getN Obj.jobId (p + 1) = 0xFFFF then s else s.setN Obj.jobWait (p + 1) 1
  let y := s.part p
  let s := s.setPart p { y with
    prev := before, after := y.after ||| y.drain, drain := 0, resetAt := s.clock.up, seqNext := [], seqLast := [],
    edgeWait := s.getN Obj.partEdge (p + 1) = 0 }
  (s.recordFor (some p) 0x2012 [p, why, s.getN Obj.partGen (p + 1)])

/-- "Previous" of R316: READY in READY, REDUCED in REDUCED service. -/
def State.previous (s : State) : Nat := if s.service = 3 then psReady else psReduced

/-- The firmware reads both copies of a bound context's record: one that is unreadable is noted, two fault the context (R200, R418). -/
def checkRecord (s : State) (x : Nat) : State :=
  match (s.ctx x).state, (s.ctx x).record with
  | .bound, some (f, f') =>
    let copy (s : State) (f : Nat) : State × Bool :=
      match readMem 3 s (f * pageSize) pageSize with
      | (s, st, _) => (s, st != stOk)
    let (s, bad) := copy s f
    let (s, bad') := copy s f'
    if bad && bad' then markFaulted s x
    else if bad || bad' then s.note (some (s.ctx x).part) .recordCopy [x] else s
  | _, _ => s

/-- The firmware reads the image in a grammar slot, and notes what it cannot read (R200, R418). -/
def checkGrammar (s : State) (p k : Nat) : State :=
  match look none (s.part p).grammars k with
  | none => s
  | some g =>
    match readRange 9 s p g.addr 64 with
    | (s, _, h) => (readRange 9 s p g.addr (field h 0x24 4)).1

/-- The Reconcile phase's reads of main memory in self-refresh: each ends with a bus error, and finds neither a record nor a grammar (R476; log 145). -/
def reconcileResting (s : State) (p : Nat) : State :=
  let records := (s.ctxsOf p).filter fun x => (s.ctx x).state == .bound && (s.ctx x).record.isSome
  let grammars := (List.range 16).filter fun k => (look none (s.part p).grammars k).isSome
  upTo (2 * records.length + grammars.length) (fun _ s => crossStopped true s) s

/-- Whether the Reconcile phase's reads of records and grammar slots wait for a channel that is being retrained (R366, R418). -/
def reconcileWaits (s : State) (p : Nat) : Bool :=
  s.raising.retrain.isSome && !s.resting && (((s.ctxsOf p).any fun x =>
    match (s.ctx x).state, (s.ctx x).record with
    | .bound, some (f, f') => retraining s (f * pageSize) pageSize || retraining s (f' * pageSize) pageSize
    | _, _ => false) || (List.range 16).any fun k =>
    match look none (s.part p).grammars k with
    | some g => rangeWaits s p g.addr (max 64 (leNat (plainBytes s p (g.addr + 0x24) 4)))
    | none => false)

/-- The Reconcile phase's checks: every bound context's record and the grammar slots; the queues are as State holds them (R418; log 132). -/
def reconcile (s : State) (p : Nat) : State :=
  if s.resting then reconcileResting s p
  else upTo 16 (fun k s => checkGrammar s p k) ((s.ctxsOf p).foldl checkRecord s)

/-! ## Leaving SHORED (R33, R316, R359) -/

/-- The reasons POWER and COOLING as the input and the coolant stand (R442, R444, R451, R452). -/
def State.shoreReasons (s : State) : Nat :=
  (if s.dark then whyPower else 0) + (if s.power.coolStop || s.power.coolInlet then whyCooling else 0)

/-- Reasons of shoring with POWER and COOLING as they now stand. -/
def State.freshWhy (s : State) (old : Nat) : Nat := old - (old &&& (whyPower + whyCooling)) + s.shoreReasons

/-- Whether a partition holds an extent on MC12 to MC23. -/
def onHalfB (s : State) (p : Nat) : Bool :=
  ((s.part p).extents ++ (s.part p).pool).any fun e => decide (12 ≤ e % 24) || s.tierMode (e / 24) 0 == 2

/-- Whether every bay of a partition's rows passed its last CORE_TEST; one that did not stays out of service (R33). -/
def State.baysPass (s : State) (p : Nat) : Bool :=
  (s.rowsOf p).all fun y => bits (s.getN Obj.raiseBayPass 0) (8 * y) 8 == 255

/-- A SHORED partition with no reason left returns to service, in REDUCED service or READY, with MEM_TRAIN_B complete where it holds
extents there, and with every bay in service (R33, R316, R359); its bays are its own again (log 175). -/
def tryReturn (s : State) (p : Nat) : State :=
  if s.pstate p = psShored ∧ s.why p = 0 ∧ s.served ≠ 0 ∧ s.baysPass p ∧
      (!onHalfB s p || look Outcome.none s.raising.steps 0x16 == .done) then
    settleWork ((claimBays s p).setPstate p s.previous) p
  else s

/-- A partition's reset ends: after the Reconcile checks it returns to the state it left, or becomes SHORED for the reasons that arose or hold, and
the completions that the reset made due are written. One that was SHORED leaves it where its reasons have gone (R316, R418, R429,
R442, R457). -/
def endReset (s : State) (p : Nat) : State :=
  let s := reconcile s p
  let y := s.part p
  let s := s.setPart p { y with after := 0, edgeWait := false }
  let s := (s.setPstate p y.prev).count Obj.partResets (p + 1)
  let s := if y.prev = psShored then s.setWhy p (s.freshWhy (s.why p)) else s
  let more := y.after ||| (if y.prev = psShored then 0 else s.shoreReasons)
  let s := (if more = 0 then s else shore s p more).endRunning p 0
  tryReturn (settleWork s p) p

end Sys2Proof.Machine
end

