-- ==== Sys2Proof/Machine/Streams.lean ====
section
/-! DEFINITION. Weight streams: controllers, stages, fills and credit (R145 to R168). -/

namespace Sys2Proof.Machine

/-! ## The arbiter of a controller (R162, R163, R166) -/

/-- Whether a stream can be read: it has a flit of stage credit in every destination bay, has met no uncorrectable burst, and its next flit lies on
no channel that is being retrained (R162, R166). The address of that flit is part of the answer. -/
def StreamCtx.readable (s : State) (x : StreamCtx) : Option Nat :=
  if x.failed ∨ !(x.dests.all fun b => decide (1 ≤ look 0 x.credit b)) then none
  else match resolve s x.part (x.src + flitSize * x.next) with
    | some (.mem a) => if retraining s a flitSize then none else some a
    | _ => none

/-- The contexts of a controller whose streams can be read, with their numbers. -/
def readableCtxs (s : State) (m : Mc) : List (Nat × StreamCtx) :=
  (List.range 16).filterMap fun i => match look none m.streams i with
    | some x => if (x.readable s).isSome then some (i, x) else none
    | none => none

/-- A controller at a new round of the arbiter, where one begins: every partition that has a readable stream has read a flit in this round, or every
readable stream of partition `p` has read its weight of flits (R163; the order within a round, log 129). -/
def Mc.newRound (m : Mc) (p : Nat) (rs : List (Nat × StreamCtx)) : Mc :=
  let m := if rs.all fun e => m.round.contains e.2.part then { m with round := [] } else m
  if rs.all fun e => e.2.part != p || decide (e.2.weight ≤ e.2.served) then
    { m with streams := m.streams.map fun e => (e.1, e.2.map fun x => if x.part = p then { x with served := 0 } else x) }
  else m

/-! ## Commands -/

/-- STREAM_READ: controller `n` reads the next flit of the stream in context `i`, where the arbiter's round gives that stream a flit, against a flit
of stage credit in every destination bay, and sends it; a stream wholly sent frees its context. An uncorrectable burst ends the stream and stops
the step (R154, R161 to R163, R166). -/
def execStreamRead (n : Fin 24) (i : Fin 16) (s : State) : Host.Outcome State Fault Refusal :=
  let m := s.mc n
  .next (match look none m.streams i with
    | none => s
    | some x =>
      match x.readable s with
      | none => s
      | some a =>
        let m := m.newRound x.part (readableCtxs s m)
        match look none m.streams i with
        | none => s
        | some x =>
          if m.round.contains x.part ∨ x.weight ≤ x.served then s
          else match readMem 1 s a flitSize with
            | (s, st, bs) =>
              if st ≠ stOk then
                stopData (s.setMc n { m with streams := put none m.streams i (some { x with failed := true }) }) x.part
              else
                let x' := { x with
                  next := x.next + 1, served := x.served + 1
                  credit := x.dests.foldl (fun c b => put 0 c b (look 0 c b - 1)) x.credit }
                let s := s.setMc n { m with
                  round := m.round ++ [x.part], streams := put none m.streams i (if x'.next < x'.len then some x' else none) }
                x.dests.foldl (fun s b =>
                  s.setBay b { s.bay b with
                    inflight := (s.bay b).inflight ++ [{ stream := x.stream, index := x.next, bytes := bs, ctl := n }] }) s)

/-- Whether a flit on its way to a bay has not yet reached a bay of its line that is nearer to the controller's station (R37). -/
def State.flitBehind (s : State) (b : Nat) (x : StreamFlit) : Bool :=
  (List.range 64).any fun d => decide (hops (mcBay x.ctl) d < hops (mcBay x.ctl) b) && s.partOf d == s.partOf b &&
    (s.bay d).inflight.any fun y => y.stream == x.stream && y.index == x.index && y.ctl == x.ctl

/-- The flit that reaches a bay next: the first of its controller's that no nearer bay still waits for (R37). Flits of different controllers, which the
mesh does not order, are taken as they were sent (DESIGN CHOICE, log 178). -/
def State.nextFlit (s : State) (b : Nat) : List StreamFlit → List Nat → Option StreamFlit
  | [], _ => none
  | x :: xs, seen =>
    if !seen.contains x.ctl ∧ !s.flitBehind b x then some x else s.nextFlit b xs (seen ++ [x.ctl])

/-- STREAM_FLIT: a bay's streamer takes the next flit that arrives into its stage; the bytes that no pending fill names are discarded, and their
stage space is free at once. Fills whose last byte has now arrived begin (R37, R156, R157, R164). -/
def execStreamFlit (b : Fin 64) (s : State) : Host.Outcome State Fault Refusal :=
  let y := s.bay b
  .next (match s.nextFlit b y.inflight [] with
    | none => s
    | some x =>
      let kept := s.wanted b x.stream x.index
      beginFills (s.setBay b { y with
        inflight := y.inflight.erase x
        stages := y.stages.map fun g =>
          if g.stream ≠ x.stream then g
          else { g with
            flits := if kept.isEmpty then g.flits else g.flits ++ [{ x with kept }], unreturned := g.unreturned + (8 - kept.length) } }) b)

/-- A slot filled: FULL, with the fill's tag and bytes (R95, R156). -/
def Slot.write (x : Slot) (tag : Half) (off : Nat) (bs : Bytes) : Slot :=
  { fill := .full, tag, data := writeBytes x.data off bs
    badWords := x.badWords.filter fun w => 16 * w < off || off + bs.length ≤ 16 * w }

/-- FILL_WRITE: the streamer of bay `b` finishes writing the next fill of row `r` over the row bus; the slot becomes FULL, stage space below
every pending offset is free, and the row's next fill begins where it can (R95, R98, R151, R156, R157). -/
def execFillWrite (b : Fin 64) (r : Fin 8) (s : State) : Host.Outcome State Fault Refusal :=
  let i := 8 * b.val + r.val
  let y := s.row i
  .next (match nextFill s i with
    | none => s
    | some (f, bs) =>
      let s := (coresOfRow i).foldl (fun s c =>
        let k := s.core c
        s.setCore c (y.setSlot k ((y.slot k).write (y.tag f) f.slotOff bs))) s
      let last := decide (f.count ≤ y.rep + 1)
      beginFill (freeStages (s.setRow i { y with
        fills := if last then y.fills.tail else y.fills, rep := if last then 0 else y.rep + 1, nextSlot := 1 - y.nextSlot }) b) i)

/-- STAGE_CREDIT_RETURN: a bay returns a stream's freed stage space to its controller, in whole flits (R161, R162). -/
def execStageCreditReturn (b : Fin 64) (stream : Nat) (s : State) : Host.Outcome State Fault Refusal :=
  let y := s.bay b
  .next (match y.stages.find? (·.stream == stream) with
    | none => s
    | some g =>
      let s := s.setBay b { y with stages := y.stages.map fun h => if h.stream = stream then { h with unreturned := g.unreturned % 8 } else h }
      let m := s.mc g.ctl
      s.setMc g.ctl { m with streams := m.streams.map fun (i, x) =>
        match x with
        | some x =>
          if x.stream = stream ∧ x.part = y.part.toNat ∧ x.dests.contains b.val then
            (i, some { x with credit := put 0 x.credit b (look 0 x.credit b + g.unreturned / 8) })
          else (i, some x)
        | none => (i, none) })

/-- A row with the next descriptors of its list as memory holds them when they are fetched, in place of those that its image held at dispatch
(R160; log 172). -/
def Row.fetch (y : Row) (n : Nat) (bs : Bytes) : Row :=
  { y with
    fills := y.fills.take y.fetched ++ (List.range n).map (fun j => fillAt bs (16 * j)) ++ y.fills.drop (y.fetched + n)
    descLeft := y.descLeft - n, descAddr := y.descAddr + 16 * n }

/-- DESCRIPTOR_FETCH: the streamer reads the next 32 fill descriptors of a row's list once 16 of those it has fetched remain; an
uncorrectable burst stops the step (R160, R200). -/
def execDescriptorFetch (b : Fin 64) (r : Fin 8) (s : State) : Host.Outcome State Fault Refusal :=
  let i := 8 * b.val + r.val
  let y := s.row i
  let n := min 32 y.descLeft
  .next (match s.partOf b with
    | none => s
    | some p =>
      if y.descLeft = 0 ∨ 16 < y.fetched ∨ rangeWaits s p y.descAddr (16 * n) then s
      else match readRange 9 s p y.descAddr (16 * n) with
        | (s, st, bs) => if st ≠ stOk then stopData s p else beginFill (s.setRow i (y.fetch n bs)) i)

end Sys2Proof.Machine
end

