-- ==== Sys2Proof/Machine/Steps.lean ====
section
/-! DEFINITION. STEP: its checks (R113, R153, R217, R497), its dispatch, loading and start (R115 to R117), and its end (R108,
R118, R411). -/

namespace Sys2Proof.Machine

/-! ## Feeds (R146, R147) -/

/-- The controller of a column feed. -/
def columnFeed (x f : Nat) : Option Nat :=
  if x = 0 then (if f ≤ 5 then some (23 - f) else none)
  else if x = 7 then (if f ≤ 5 then some (6 + f) else none)
  else match f with
    | 0 => some (x - 1)
    | 1 => some (18 - x)
    | _ => none

/-- The controller of a row feed of a physical row. -/
def rowFeed (y f : Nat) : Option Nat :=
  if y = 0 then (if f ≤ 5 then some f else none)
  else if y = 7 then (if f ≤ 5 then some (17 - f) else none)
  else match f with
    | 0 => some (24 - y)
    | 1 => some (5 + y)
    | _ => none

/-- The controller of a stream in a partition that holds physical rows `ys`. -/
def StreamDesc.controller (d : StreamDesc) (ys : List Nat) : Option Nat :=
  if d.row then (ys[d.line]?).bind fun y => rowFeed y d.feed else columnFeed d.line d.feed

/-- The GiB of the partition's view that a stream's source touches. -/
def StreamDesc.gibs (d : StreamDesc) : List Nat :=
  (List.range ((d.src + d.len * flitSize + gib - 1) / gib - d.src / gib)).map (d.src / gib + ·)

/-- Whether a plain GiB of a partition is an extent placed on a controller (R153, R182). -/
def homeOn (s : State) (p n g : Nat) : Bool :=
  match (s.part p).extents[g]? with
  | some e => s.tierMode (e / 24) (e % 24 / 12) == 0 && (placeOf s (e * gib)).1 == n
  | none => false

/-- The checks of R153 over a step's streams; no status where they pass. A feed on a controller that is not in service is absent (R171). -/
def streamStatus (s : State) (p : Nat) (ds : List StreamDesc) : Option Byte :=
  let ys := s.rowsOf p
  let ctls := ds.map fun d => (d.controller ys).filter (· < s.served)
  if ctls.any Option.isNone ∨ (List.range 24).any fun n => decide (16 < (ctls.filter (· == some n)).length) then some stFeed
  else if ds.any fun d => decide (s.quota p * gib < d.src + d.len * flitSize) then some stRange
  else if ds.any fun d => !(d.gibs.all fun g =>
      match d.controller ys with
      | some n => homeOn s p n g
      | none => false) then some stHome
  else none

/-! ## The checks of a STEP (R497) -/

/-- What the checks of a STEP find: its image and its token-table entries. -/
structure StepPlan where
  img    : Bytes
  tokens : List Token

/-- Whether a range lies in a partition's plain memory. -/
def State.inPlain (s : State) (p a n : Nat) : Bool := decide (a + n ≤ s.plain p * gib)

/-- Whether a token-table entry keeps R217 for a vocabulary of `v`. -/
def validEntry (bs : Bytes) (v : Nat) : Bool :=
  let n := field bs 0 1
  decide (n ≤ 8) && zeros bs 1 3 && (List.range n).all fun i => decide (field bs (4 + 4 * i) 4 < v)

/-- The entry of a slot as the module reads it at dispatch; stage 2 takes its drafts away (R217, R439). -/
def entryToken (s : State) (slot ctx : Nat) (bs : Bytes) : Token :=
  let bs := if 2 ≤ s.stage then patch bs 0 [0] else bs
  { slot, ctx, drafts := (List.range (field bs 0 1)).map fun i => BitVec.ofNat 32 (field bs (4 + 4 * i) 4)
    input := bs, n0 := (s.ctx ctx).n, status := tsPending, emitted := [], closed := false, rowsDone := 0, final := 0, logprob := 0
    nucleus := 0 }

/-- The entries of the listed slots; a status where one fails its check (R217, R497). -/
def readEntries (s : State) (p table : Nat) : List (Nat × Nat) → State × (Byte ⊕ List Token)
  | [] => (s, .inr [])
  | (slot, x) :: rest =>
    match readRange 9 s p (table + 64 * slot) 64 with
    | (s, st, bs) =>
      if st ≠ stOk ∨ !validEntry bs (s.ctx x).params.vocab then (s, .inl stTable)
      else match readEntries s p table rest with
        | (s', .inr ts) => (s', .inr (entryToken s slot x bs :: ts))
        | r => r

/-- The parts of an image of these offsets and sizes read from memory: the first error status, or OK. -/
def readParts (s : State) (p image : Nat) : List (Nat × Nat) → State × Byte
  | [] => (s, stOk)
  | (a, n) :: rest =>
    match readRange 9 s p (image + a) n with
    | (s, st, _) => if st ≠ stOk then (s, st) else readParts s p image rest

/-- Whether the image at an address was validated last with the CRC that its header now states (R113). -/
def State.validated (s : State) (p image : Nat) (hdr : Bytes) : Bool := look none (s.part p).valid image == some (imageCrc hdr)

/-- The parts of an image that dispatch reads beside its header: all of it where it is to be validated (R113); else the section table, the group
list, and the header, the streams and the row table of the stream list, whose fill descriptors the streamers read (R115, R150, R160, R235). -/
def dispatchParts (img : Bytes) (known : Bool) : List (Nat × Nat) :=
  let size := max 64 (imageSize img)
  if !known then [(0, size)]
  else
    let table := (field img 0x10 4, 16 * field img 0xE 2)
    let streams := match (sectionsTyped img 5).head? with
      | some x =>
        let l := x.bytes img
        [(x.off, 16), (x.off + field l 4 4, 32 * field l 0 2), (x.off + field l 8 4, 512 * imageRows img)]
      | none => []
    (table :: streams ++ (sectionsTyped img 6).map fun x => (x.off, x.size)).filter fun x => decide (x.1 + x.2 ≤ size)

/-- The checks of a STEP in the order of R497: a status, or what the step needs. -/
def checkStep (s : State) (p : Nat) (c : Cmd) : State × (Byte ⊕ StepPlan) :=
  let image := c.at 0x10 8
  let table := c.at 0x18 8
  let list := c.at 0x20 8
  let n := c.at 0x28 2
  if !s.inPlain p image 64 ∨ !s.inPlain p list (2 * n) then (s, .inl stRange)
  else match readRange 9 s p image 64 with
  | (s, st, hdr) =>
  if st ≠ stOk then (s, .inl st)
  else match readRange 9 s p list (2 * n) with
  | (s, st, lb) =>
  let slots := (List.range n).map fun i => field lb (2 * i) 2
  if st ≠ stOk then (s, .inl st)
  else if !s.inPlain p image (max 64 (imageSize hdr)) ∨ slots.any fun k => !s.inPlain p (table + 64 * k) 64 then
    (s, .inl stRange)
  else
  let img := plainBytes s p image (max 64 (imageSize hdr))
  let known := s.validated p image hdr
  match readParts s p image (dispatchParts img known) with
  | (s, st) =>
  if st ≠ stOk then (s, .inl st)
  else if !known && !validImage img then (s, .inl stImage)
  else
    let s := s.setPart p { s.part p with valid := put none (s.part p).valid image (some (imageCrc hdr)) }
    let ctxs := slots.map (s.boundTo p)
    if imageRows img ≠ (s.rowsOf p).length then (s, .inl stRows)
    else if slots.eraseDups.length ≠ slots.length then (s, .inl stParam)
    else if ctxs.any fun x =>
        match x with
        | some x => (s.ctx x).state != .bound
        | none => true then (s, .inl stConflict)
    else match readEntries s p table (slots.zip (ctxs.filterMap id)) with
      | (s, .inl st) => (s, .inl st)
      | (s, .inr tokens) =>
        match streamStatus s p (streamsOf ((sectionBytes img 5).getD [])) with
        | some st => (s, .inl st)
        | none => (s, .inr ⟨img, tokens⟩)

/-- Whether one of the parts of an image waits for a channel that is being retrained (R366). -/
def loadWaits (s : State) (p image : Nat) (parts : List (Nat × Nat)) : Bool :=
  s.raising.retrain.isSome && parts.any fun x => rangeWaits s p (image + x.1) x.2

/-- Whether a read that the checks of a STEP make waits for a channel that is being retrained (R366). -/
def stepWaits (s : State) (p : Nat) (c : Cmd) : Bool :=
  let image := c.at 0x10 8
  let list := c.at 0x20 8
  let n := c.at 0x28 2
  let hdr := plainBytes s p image 64
  let img := plainBytes s p image (max 64 (imageSize hdr))
  s.raising.retrain.isSome &&
    (rangeWaits s p list (2 * n) || loadWaits s p image ((0, 64) :: dispatchParts img (s.validated p image hdr)) ||
      (List.range n).any fun i => rangeWaits s p (c.at 0x18 8 + 64 * leNat (plainBytes s p (list + 2 * i) 2)) 64)

/-- The contexts that a STEP names become FAULTED, for a DATA_ERROR that ends it at dispatch: those of the slots that its list can still be read
for (R110; log 42). -/
def faultNamed (s : State) (p : Nat) (c : Cmd) : State :=
  (List.range (c.at 0x28 2)).foldl (fun s i =>
    let a := c.at 0x20 8 + 2 * i
    match resolve s p a with
    | some (.mem x) =>
      if unreadable s (x / 64) then s
      else match s.boundTo p (leNat (plainBytes s p a 2)) with
        | some x => markFaulted s x
        | none => s
    | _ => s) s

/-- A STEP whose checks fail at dispatch completes with a status; DATA_ERROR faults the contexts that it names (R110, R497). -/
def refuseStep (s : State) (p q : Nat) (c : Cmd) (st : Byte) : State :=
  finish (if st = stData then faultNamed s p c else s) q c.seq { status := st }

/-! ## Dispatch (R153, R154, R217, R318) -/

/-- The free stream contexts of a controller (R154). -/
def Mc.freeStreams (m : Mc) : List Nat := (List.range 16).filter fun i => (look none m.streams i).isNone

/-- Whether every controller has free contexts for its streams of a step (R153). -/
def roomFor (s : State) (p : Nat) (ds : List StreamDesc) : Bool :=
  (List.range 24).all fun n =>
    decide ((ds.filter fun d => d.controller (s.rowsOf p) == some n).length ≤ (s.mc n).freeStreams.length)

/-- A stream loaded into a context of its controller, with its stages in its destination bays (R149, R154, R155). -/
def loadStream (p : Nat) (s : State) (i : Nat) (d : StreamDesc) : State :=
  let ys := s.rowsOf p
  match d.controller ys with
  | none => s
  | some n =>
    let m := s.mc n
    let dests := (d.dests ys.length).map fun b => 8 * ys.getD (b / 8) 0 + b % 8
    let x : StreamCtx :=
      { part := p, stream := i, src := d.src, len := d.len, next := 0, weight := d.weight, dests,
        credit := dests.foldl (fun c b => put 0 c b (8 * d.stage)) [] }
    let s := s.setMc n { m with streams := put none m.streams (m.freeStreams.headD 0) (some x) }
    dests.foldl (fun s b =>
      s.setBay b { s.bay b with stages := (s.bay b).stages ++ [⟨i, 8 * d.stage, [], 0, n⟩] }) s

/-- The row lists of a bay, with every slot EMPTY (R98, R150). -/
def loadLists (img : Bytes) (image : Nat) (s : State) (b : Nat) : State :=
  let off := ((sectionsTyped img 5).head?.map (·.off)).getD 0
  let l := (sectionBytes img 5).getD []
  let s := upTo 8 (fun r s =>
    let i := 8 * (8 * (s.bay b).py.toNat + bayX b) + r
    let (o, n) := rowEntry l i
    s.setRow (8 * b + r) { s.row (8 * b + r) with
      hasList := o != 0, fills := rowFills l i, descAddr := image + off + o, descLeft := if o = 0 then 0 else n, rep := 0
      nextSlot := 0 }) s
  let s := s.setBay b { s.bay b with loaded := false, stages := [], inflight := [] }
  (coresOf b).foldl (fun s c =>
    let k := s.core c
    s.setCore c { k with slot0 := { k.slot0 with fill := .empty }, slot1 := { k.slot1 with fill := .empty }, written := [] }) s

/-- A STEP whose checks passed is dispatched: its contexts are ACTIVE, its entries are written with N0 and status 0xFF, its
streams and lists are loaded, and the sequencers begin. The other output fields of an entry are written as they were read (R217; DESIGN CHOICE,
log 191). -/
def launch (s : State) (p q : Nat) (c : Cmd) (plan : StepPlan) : State :=
  let img := plan.img
  let image := c.at 0x10 8
  let table := c.at 0x18 8
  let l := (sectionBytes img 5).getD []
  let r : StepRun :=
    { queue := q, seq := c.seq, image, build := imageBuild img, phase := .loading, table, arg0 := BitVec.ofNat 32 (c.at 0x30 4), arg1 := BitVec.ofNat 32 (c.at 0x34 4)
      tokens := plan.tokens, groups := imageGroups img, job := s.getN Obj.jobId (p + 1), map := s.getB Obj.jobMap (p + 1), faults := [], ends := [], dataErr := false, collAbort := none }
  let s := start s q c
  let s := plan.tokens.foldl (fun s t => s.setCtx t.ctx { s.ctx t.ctx with state := .active }) s
  let s := plan.tokens.foldl (fun s t =>
    storePlain s p (table + 64 * t.slot) (patch (patch t.input 0x25 [tsPending]) 0x38 (leBytes 8 t.n0.toNat))) s
  let s := (s.baysOf p).foldl (loadLists img image) s
  let s := (streamsOf l).zipIdx.foldl (fun s (d, i) => loadStream p s i d) s
  s.setPart p { s.part p with step := some r, ticket := 0, posts := [] }

/-- STEP: queue `q` dispatches a STEP, unless JOB_WAIT or stage 1 holds it; without the stream contexts it needs, or while a read of its checks waits
for a retrain, it waits and holds its partition's boundary (R153, R314, R366, R420, R438, R497). -/
def execStep (q : Fin 4096) (s : State) : Host.Outcome State Fault Refusal :=
  .next (dispatch q 2 0 s fun p c s =>
    if s.heldStep p q c then s
    else if stepWaits s p c then hold s p q c
    else match checkStep s p c with
    | (s, .inl st) => refuseStep s p q c st
    | (s, .inr plan) =>
      if roomFor s p (streamsOf ((sectionBytes plan.img 5).getD [])) then launch s p q c plan
      else hold s p q c)

/-! ## Loading (R115) -/

/-- A SCRATCH_INIT section written to a core: whole 16-byte words, and the last by read-modify-write, which an uncorrectable
word refuses (R115). -/
def initScratch (k : Core) (a : Nat) (bs : Bytes) : Core × Bool :=
  let whole := bs.length / 16 * 16
  if bs.length % 16 ≠ 0 ∧ k.badWords.contains ((a + whole) / 16) then (k.store a (bs.take whole), false)
  else (k.store a bs, true)

/-- The sections that a bay's sequencer fetches: all of them, or the EVERY sections of a resident image (R115). -/
def sectionsFor (img : Bytes) (resident : Bool) (progs : List Nat) : List Section :=
  (sectionsOf img).filter fun x =>
    match x.type with
    | 1 => !resident && progs.contains x.param
    | 3 => !resident
    | 4 => !resident || bit x.flags 0
    | _ => false

/-- A row with a section's contents written to it; instruction words past the program keep their values (R115). -/
def Row.load (r : Row) (x : Section) (bs : Bytes) : Row :=
  match x.type with
  | 1 =>
    if r.prog = x.param then
      { r with
        imem := blit 0 r.imem 0 ((pieces 8 (x.size / 8) bs).map fun w => BitVec.ofNat 64 (leNat w))
        progLen := x.size / 8 }
    else r
  | 3 =>
    { r with tables := writeBytes r.tables (1024 * x.param) bs }
  | _ => r

/-- A core of a row to which a section is written: a word written whole gets fresh check bits (R91). -/
def Core.freshen (k : Core) (prog : Nat) (x : Section) : Core :=
  match x.type with
  | 1 => if prog = x.param then { k with badImem := k.badImem.filter fun i => x.size / 8 ≤ i } else k
  | 3 => { k with badTables := k.badTables.filter fun w => w < 64 * x.param || 64 * (x.param + 1) ≤ w }
  | _ => k

/-- A section written over the row buses of a bay; false where a partial word could not be written. -/
def loadSection (s : State) (b : Nat) (x : Section) (bs : Bytes) : State × Bool :=
  let s := upTo 8 (fun r s =>
    let y := s.row (8 * b + r)
    if y.idle then s
    else (coresOfRow (8 * b + r)).foldl (fun s c =>
      let k := s.core c
      if k.badImem.isEmpty ∧ k.badTables.isEmpty then s else s.setCore c (k.freshen y.prog x))
      (s.setRow (8 * b + r) (y.load x bs))) s
  if x.type ≠ 4 then (s, true)
  else (s.workers b).foldl (fun (s, ok) c =>
    let (k, fine) := initScratch (s.core c) x.param bs
    (s.setCore c k, ok && fine)) (s, true)

/-- The sections of a list read from memory and written; the first error ends the loading. -/
def loadSections (s : State) (p b image : Nat) : List Section → State × Bool
  | [] => (s, true)
  | x :: xs =>
    match readRange 9 s p (image + x.off) x.size with
    | (s, st, bs) =>
      if st ≠ stOk then (s, false)
      else match loadSection s b x bs with
        | (s, true) => loadSections s p b image xs
        | (s, false) => (s, false)

/-- The parts of an image that a sequencer reads before its sections: the header, the section table and the bay map (R111, R112, R115). -/
def headParts (img : Bytes) : List (Nat × Nat) :=
  (0, 64) :: (field img 0x10 4, 16 * field img 0xE 2) :: (sectionsTyped img 2).map fun x => (x.off, x.size)

/-- STEP_LOAD: a bay's sequencer reads the image header, and loads or skips the sections; an uncorrectable read stops the step
with DATA_ERROR, and one of a channel that is being retrained waits (R115, R366). A load that fails in a section leaves the bay no resident image, and
one that fails before its sections leaves the image that was resident (DESIGN CHOICE, log 187). -/
def execStepLoad (x : AtBay) (s : State) : Host.Outcome State Fault Refusal :=
  let b := x.bay
  let s := x.found.foldl (fun s (c, x) => s.strike (128 * b.val + c.val) x) s
  .next (match s.partOf b with
  | none => s
  | some p =>
    match (s.part p).step with
    | none => s
    | some r =>
      let hdr := plainBytes s p r.image 64
      let img := plainBytes s p r.image (imageSize hdr)
      let resident := (s.bay b).resident == some (r.image, imageCrc hdr)
      let progs := (List.range 8).map (mapProgram img (8 * (s.bay b).py.toNat + bayX b))
      let secs := sectionsFor img resident progs
      if r.phase ≠ .loading ∨ (s.bay b).loaded ∨ loadWaits s p r.image (headParts img ++ secs.map fun x => (x.off, x.size)) then s
      else match readParts s p r.image (headParts img) with
        | (s, st) =>
          if st ≠ stOk then stopData s p
          else
            let s := upTo 8 (fun i s =>
              let g := progs.getD i 0xFF
              s.setRow (8 * b.val + i) { s.row (8 * b.val + i) with prog := g, idle := g == 0xFF }) s
            match loadSections s p b r.image secs with
            | (s, true) => s.setBay b { s.bay b with loaded := true, resident := some (r.image, imageCrc hdr) }
            | (s, false) => stopData (s.setBay b { s.bay b with resident := none }) p)

/-! ## Start (R116, R117) -/

/-- A core at the start of a step (R116). -/
def Core.begin (k : Core) (arg0 arg1 : Word) : Core :=
  { k with
    run := .running, g := [], p := [], v := [], acc := [], loops := [], pc := 0, cycles := 0, cycHi := 0, kerf := false, arg0, arg1
    faultPc := 0, faultAux := 0, tq := [], later := [], under := [], xfers := [], nextXfer := 0, xferErr := none }

/-- START_TOKEN: once every sequencer of the partition has loaded, every core of its non-idle rows starts (R116, R117). -/
def execStartToken (p : Fin 8) (s : State) : Host.Outcome State Fault Refusal :=
  .next (match (s.part p).step with
  | none => s
  | some r =>
    if r.phase ≠ .loading ∨ !((s.baysOf p).all fun b => (s.bay b).loaded) then s
    else
      let s := (s.workersOf p).foldl (fun s c => s.setCore c ((s.core c).begin r.arg0 r.arg1)) s
      s.setPart p { s.part p with step := some { r with phase := .running, started := true } })

/-! ## Ends -/

/-- The sequencer stops the other cores of a bay with a faulted one; one that a transfer's error has reached has faulted (R108, R122). -/
def stopOthers (s : State) (b : Nat) : State :=
  (coresOf b).foldl (fun s c =>
    let k := (s.core c).due
    match k.run with
    | .off => s
    | .faulted _ => s.setCore c k
    | _ => s.setCore c { k with run := .off, tq := [], xfers := [], xferErr := none }) s

/-- FAULT_REPORT: the sequencer of a bay with a faulted core stops the bay's cores and reports the fault, and the firmware stops every bay of
the partition; while no firmware serves, the report waits (R108, R109, R376). -/
def execFaultReport (b : Fin 64) (s : State) : Host.Outcome State Fault Refusal :=
  let faulted : Bool := (s.workers b).any fun c =>
    match (s.core c).run with
    | .faulted _ => true
    | _ => false
  .next (match s.partOf b with
  | some p => if !faulted then s else if s.serving then stopStep s p [] else stopOthers (stopStep s p []) b
  | none => s)

/-- Whether the engine has a collective or a request of a partition (R241). -/
def State.collective (s : State) (p : Nat) : Bool :=
  !(s.part p).posts.isEmpty || (s.baysOf p).any (fun b => !(s.bay b).posts.isEmpty) ||
    (List.range 32).any fun i =>
      match s.coll i with
      | some x => x.part == p
      | none => false

/-- Whether a sampler unit has a whole row of a partition that it has not finished (R220). -/
def State.rowsDue (s : State) (p : Nat) : Bool :=
  (List.range 8).any fun u => (s.su u).engines.any fun e =>
    e.part == p && e.mask != .loading && e.whole (s.ctx e.ctx).params.vocab

/-- Whether a step has run to its end: every core that runs it has halted and every fill list has ended (R118). -/
def State.ran (s : State) (p : Nat) : Bool :=
  ((s.workersOf p).all fun c => (s.core c).halted) &&
    (s.baysOf p).all fun b => (List.range 8).all fun r => (s.row (8 * b + r)).fills.isEmpty

/-- The running step with every sequence closed, unless its rows were cancelled (R220, R228). -/
def closedStep (s : State) (p : Nat) (r : StepRun) : State × StepRun :=
  if r.cancelled then (s, r)
  else
    let s := closeAll s p
    (s, ((s.part p).step).getD r)

/-- Whether every mover of a partition is drained: no request of a core's transfer waits for its reply (R411). -/
def State.moversDrained (s : State) (p : Nat) : Bool :=
  s.net.requests.all fun r =>
    match r.who with
    | .xfer _ _ => r.part != p
    | _ => true

/-- Whether a step has ended: it has run to its end, or it was stopped and every bay confirms that, its movers drained (R118, R411). -/
def State.stepEnded (s : State) (p : Nat) (r : StepRun) : Bool :=
  (r.phase == .stopping && s.moversDrained p) || (r.phase == .running && s.ran p)

/-- STEP_COMPLETE: a step completes once its cores have halted or stopped, its lists and collectives have ended and every
whole row is finished; rows that are not whole close as INCOMPLETE, once no commit of theirs waits for a retrain. A stopped step waits for the replies
that its movers have outstanding (R118, R210, R220, R228, R241, R311, R411). -/
def execStepComplete (p : Fin 8) (s : State) : Host.Outcome State Fault Refusal :=
  .next (match (s.part p).step with
  | none => s
  | some r =>
    if !s.stepEnded p r ∨ s.collective p ∨ s.rowsDue p ∨ closeWaits s p then s
    else
      let (s, r) := closedStep s p r
      endStep s p r)

/-- STOP_CONFIRMATION_TIMEOUT: a bay has not confirmed a stop within 1 ms: the firmware, where it acts, resets the partition, which cancels the
step's rows, and the step completes, once that is done, with the status that it would have had (R228, R411, R418). -/
def execStopConfirmationTimeout (p : Fin 8) (s : State) : Host.Outcome State Fault Refusal :=
  .next (match (s.part p).step with
  | none => s
  | some r =>
    if r.phase ≠ .stopping ∨ !s.serving then s
    else
      let before := s.pstate p
      let s := recordFault (settleCtxs (cancelRows s p) r) p r
      let s := makeDone (s.setPstate p psResetting) r.queue r.seq (stepCpl s p r)
      startReset (s.setPart p { s.part p with step := none }) p 2 before)

end Sys2Proof.Machine
end

