-- ==== Sys2Proof/Machine/Commands.lean ====
section
/-! DEFINITION. Queue commands other than STEP: CONTEXT, COPY, GRAMMAR, FENCE and TIMER, their completion and their timeout
(R309 to R318, R496). -/

namespace Sys2Proof.Machine

/-! ## CONTEXT (R190, R191, R195 to R198, R211, R318) -/

/-- Whether an FP32 word lies between two others. -/
def between (lo hi x : Word) : Bool := !(fp32 x).lt (fp32 lo) && !(fp32 hi).lt (fp32 x) && fp32 x != .nan

/-- The parameters of a block (R211). -/
def paramsOf (b : Bytes) : Params :=
  let w (o : Nat) : Word := BitVec.ofNat 32 (field b o 4)
  { seed := BitVec.ofNat 64 (field b 0 8), temp := w 8, topP := w 0xC, topK := field b 0x10 2, window := field b 0x12 2
    rho := w 0x14, alpha := w 0x18, vocab := field b 0x1C 4, grammar := field b 0x20 1, report := bit (field b 0x21 1) 0
    gstate := w 0x24 }

/-- Whether a parameter block keeps R211, with the grammar that its slot holds; with no grammar (0xFF) any grammar state is accepted and stored, as it
is while the slot is empty (DESIGN CHOICE, log 184). -/
def validParams (s : State) (p : Nat) (b : Bytes) : Bool :=
  let q := paramsOf b
  ((fp32 q.temp).eq (.fin 0 0) || between 0x3C23_D70A 0x42C8_0000 q.temp) &&
    between 0 0x3F80_0000 q.topP && !(fp32 q.topP).eq (.fin 0 0) && decide (q.topK ≤ 256) && decide (q.window ≤ 4096) &&
    between 0x3F80_0000 0x4120_0000 q.rho && between 0xC120_0000 0x4120_0000 q.alpha &&
    decide (16 ≤ q.vocab ∧ q.vocab ≤ 262144) && q.vocab % 16 == 0 && (decide (q.grammar ≤ 15) || q.grammar == 0xFF) &&
    decide (field b 0x21 1 ≤ 1) && zeros b 0x22 2 && zeros b 0x28 24 &&
    (match s.grammar p q.grammar with
    | some g => q.gstate == 0xFFFF_FFFF || decide (q.gstate.toNat < g.states)
    | none => true)

/-- The parameter block of an OPEN or SET: a status, or the parameters. -/
def readParams (s : State) (p : Nat) (c : Cmd) : State × (Byte ⊕ Params) :=
  let a := c.at 0x18 8
  if !s.inPlain p a 64 then (s, .inl stRange)
  else match readRange 9 s p a 64 with
    | (s, st, b) =>
      if st ≠ stOk then (s, .inl st)
      else if validParams s p b then (s, .inr (paramsOf b)) else (s, .inl stParam)

/-- The preload record of an OPEN: a status, or N and the tokens, oldest first (R310). -/
def readPreload (s : State) (p : Nat) (c : Cmd) (v : Nat) : State × (Byte ⊕ (Dword × List Word)) :=
  let a := c.at 0x20 8
  if a = 0 then (s, .inr (0, []))
  else if !s.inPlain p a 16 then (s, .inl stRange)
  else match readRange 9 s p a 16 with
    | (s, st, h) =>
      let n := field h 8 4
      if st ≠ stOk then (s, .inl st)
      else if 4096 < n ∨ !zeros h 0xC 4 then (s, .inl stParam)
      else if !s.inPlain p a (16 + 4 * n) then (s, .inl stRange)
      else match readRange 9 s p (a + 16) (4 * n) with
        | (s, st, bs) =>
          let ts := (List.range n).map fun i => BitVec.ofNat 32 (field bs (4 * i) 4)
          if st ≠ stOk then (s, .inl st)
          else if ts.any fun t => decide (v ≤ t.toNat) then (s, .inl stParam)
          else (s, .inr (BitVec.ofNat 64 (field h 0 8), ts))

/-- Whether the two frames that an OPEN is to take for its record wait for a channel that is being retrained (R190, R366). -/
def openWaits (s : State) (p : Nat) : Bool :=
  match takeFrames s p 2 with
  | some (fs, _) => fs.any fun f => retraining s (f * pageSize) pageSize
  | none => false

/-- Whether an OPEN or SET waits for a channel that is being retrained: for its parameter block, for an OPEN's preload record, or for the record that it
writes (R366). -/
def paramsWait (s : State) (p : Nat) (c : Cmd) : Bool :=
  let a := c.at 0x20 8
  s.raising.retrain.isSome && (rangeWaits s p (c.at 0x18 8) 64 ||
    if c.op = 1 then openWaits s p || (a != 0 && rangeWaits s p a (16 + 4 * leNat (plainBytes s p (a + 8) 4)))
    else recordWaits s (c.at 0x10 2))

/-- A CONTEXT command of queue `q` with op `op`: the number is checked, then the state, and then `run` acts (R318). -/
def contextCmd (q op : Nat) (ok : CtxState → Bool) (s : State) (run : Nat → Nat → Cmd → State → State) : State :=
  dispatch q 1 op s fun p c s =>
    let x := c.at 0x10 2
    if !s.ownsCtx p x then finish s q c.seq { status := stParam }
    else if !ok (s.ctx x).state then finish s q c.seq { status := stConflict }
    else run p x c s

/-- OPEN: a FREE context takes its parameters, its preload and two frames for its record, and is PARKED (R190, R191, R211, R310,
R318). -/
def execOpenCtx (q : Fin 4096) (s : State) : Host.Outcome State Fault Refusal :=
  .next (contextCmd q 1 (· == .free) s fun p x c s =>
    let fail (s : State) (st : Byte) : State := finish s q c.seq { status := st }
    if paramsWait s p c then hold s p q c
    else match readParams s p c with
    | (s, .inl st) => fail s st
    | (s, .inr ps) =>
      match readPreload s p c ps.vocab with
      | (s, .inl st) => fail s st
      | (s, .inr (n, ts)) =>
        match takeFrames s p 2 with
        | some ([a, b], s) =>
          finish (s.setCtx x { state := .parked, part := p, params := ps, n, ring := ts, gstate := ps.gstate, record := some (a, b) })
            q c.seq {}
        | _ => fail s stNoFrames)

/-- Whether an access in progress may hold a translation into a slot's window: a started COPY with a rack address of this module, or a request that
a station serves and whose access is due (R196, R423). -/
def State.spanBusy (s : State) (p slot : Nat) : Bool :=
  let touches (a n : Nat) : Bool := (s.spanPages p a n).any (s.windowOf p slot)
  let copies (c : Cmd) (kind addr : Nat) : Bool :=
    c.at kind 1 == 3 && match rackEnd s (c.at 0x26 1) (c.at addr 8) with
      | some (.here a) => touches a (c.at 0x20 4)
      | _ => false
  (s.cmdsOf p).any (fun (_, c) => c.copying && (copies c 0x24 0x10 || copies c 0x25 0x18)) ||
    s.net.serving.any fun v => v.part == p && v.due.isSome && touches (bits v.h.addr.toNat 0 42) v.h.len.toNat

/-- A PARKED context bound to a slot; the slot's window leaves every slice of the cache first (R195, R318). -/
def bindTo (s : State) (p q x k : Nat) (c : Cmd) : State :=
  let s := unbindWindow s p k
  finish (s.setCtx x { s.ctx x with state := .bound, slot := some k }) q c.seq { result := BitVec.ofNat 32 k }

/-- BIND: a PARKED context is BOUND at the slot named, or NO_SLOT (R318); it waits while an access addresses the slot's window (R196). -/
def execBind (q : Fin 4096) (s : State) : Host.Outcome State Fault Refusal :=
  .next (contextCmd q 2 (· == .parked) s fun p x c s =>
    let k := c.at 0x12 2
    if (s.boundTo p k).isSome then finish s q c.seq { status := stNoSlot }
    else if s.spanBusy p k then hold s p q c
    else bindTo s p q x k c)

/-- RESUME: a PARKED context is BOUND at the lowest free windowed slot, or NO_SLOT (R318); it waits while an access addresses the slot's window
(R196). -/
def execResume (q : Fin 4096) (s : State) : Host.Outcome State Fault Refusal :=
  .next (contextCmd q 3 (· == .parked) s fun p x c s =>
    match (List.range (s.getN Obj.partWindows (p + 1))).find? fun k => (s.boundTo p k).isNone with
    | some k => if s.spanBusy p k then hold s p q c else bindTo s p q x k c
    | none => finish s q c.seq { status := stNoSlot })

/-- Whether a COPY that names a context and was accepted before number `n` has not completed (R314). -/
def State.copyWaits (s : State) (p x n : Nat) : Bool :=
  (s.cmdsOf p).any fun (_, d) => d.cls == 3 && !d.isDone && decide (d.seq < n) && d.named.contains x

/-- A command's phase replaced. -/
def State.setPhase (s : State) (q seq : Nat) (ph : CmdPhase) : State :=
  let y := s.queue q
  s.setQueue q { y with cmds := y.cmds.map fun d => if d.seq = seq then { d with phase := ph } else d }

/-- A waiting PARK or CLOSE completes, unless a COPY still holds it: PARK gives the slot released; CLOSE gives its context up
(R198, R313, R314, R318). -/
def finishWaiting (s : State) (p q : Nat) (c : Cmd) (slot upTo : Nat) : State :=
  let x := c.at 0x10 2
  if s.copyWaits p x upTo then s
  else if c.op = 5 then finish (closeCtx s x) q c.seq {}
  else finish s q c.seq { result := BitVec.ofNat 32 slot }

/-- PARK or CLOSE dispatched: the context leaves its slot and takes its new state at once (R314, R318); while an access holds a translation into
the slot's window, the command waits before it starts (R423). -/
def leaveSlot (s : State) (p q x : Nat) (c : Cmd) (st : CtxState) (slot : Nat) : State :=
  let v := s.ctx x
  if (v.slot.map (s.spanBusy p)).getD false then hold s p q c else
  let s := match v.slot with
    | some k => unbindWindow s p k
    | none => s
  let s := (start s q c).setCtx x { v with state := st, slot := none }
  let upTo := (s.part p).order
  finishWaiting (s.setPhase q c.seq (.waiting slot upTo)) p q c slot upTo

/-- PARK: a BOUND context becomes PARKED and its slot is free (R197, R318). -/
def execPark (q : Fin 4096) (s : State) : Host.Outcome State Fault Refusal :=
  .next (contextCmd q 4 (· == .bound) s fun p x c s => leaveSlot s p q x c .parked ((s.ctx x).slot.getD 0))

/-- CLOSE: a context becomes CLOSING, and FREE once no earlier COPY names it (R198, R314, R318). -/
def execClose (q : Fin 4096) (s : State) : Host.Outcome State Fault Refusal :=
  .next (contextCmd q 5 (fun st => st == .bound || st == .parked || st == .faulted) s fun p x c s =>
    leaveSlot s p q x c .closing (if (s.ctx x).state = .faulted then 1 else 0))

/-- SET: a BOUND or PARKED context's parameters and grammar state are replaced (R211, R318). -/
def execSetParams (q : Fin 4096) (s : State) : Host.Outcome State Fault Refusal :=
  .next (contextCmd q 6 (fun st => st == .bound || st == .parked) s fun p x c s =>
    if paramsWait s p c then hold s p q c
    else match readParams s p c with
    | (s, .inl st) => finish s q c.seq { status := st }
    | (s, .inr ps) => finish (s.setCtx x { s.ctx x with params := ps, gstate := ps.gstate }) q c.seq {})

/-! ## COPY (R277, R310, R496) -/

/-- One end of a COPY: its kind, address and context. -/
structure CopyEnd where
  kind : Nat
  addr : Nat
  ctx  : Nat
  rack : Nat

/-- The source of a COPY. -/
def Cmd.source (c : Cmd) : CopyEnd := ⟨c.at 0x24 1, c.at 0x10 8, c.at 0x28 2, c.at 0x26 1⟩
/-- The destination of a COPY. -/
def Cmd.dest (c : Cmd) : CopyEnd := ⟨c.at 0x25 1, c.at 0x18 8, c.at 0x2A 2, c.at 0x26 1⟩

/-- The check of an end's address that comes before those of contexts. -/
def CopyEnd.early (e : CopyEnd) (s : State) (p n : Nat) : Byte :=
  match e.kind with
  | 0 => if s.inPlain p e.addr n then stOk else stRange
  | 3 =>
    if bits e.addr 48 16 ≠ 0 then stRange
    else match rackEnd s e.rack e.addr with
      | none => stNoRoute
      | some (.here a) => if rangeOk s p a n fun _ => true then stOk else stRange
      | some (.module _ _) => stOk
  | _ => stOk

/-- How a context stands for a COPY: a CLOSE that waits for the COPY leaves it the state that the CLOSE met (R314, R318). -/
def copyState (s : State) (p x : Nat) (c : Cmd) : CtxState :=
  let st := (s.ctx x).state
  if st ≠ .closing then st
  else
    let held := (s.cmdsOf p).findSome? fun (_, d) =>
      match d.phase with
      | .waiting k upTo => if d.op = 5 ∧ d.at 0x10 2 = x ∧ c.seq < upTo then some k else none
      | _ => none
    match held with
    | some 1 => .faulted
    | some _ => .parked
    | none => .closing

/-- The checks of a COPY at dispatch, the source's before the destination's (R312, R496). -/
def copyStatus (s : State) (p : Nat) (c : Cmd) : Byte :=
  let n := c.at 0x20 4
  let ends := [c.source, c.dest]
  let first (f : CopyEnd → Byte) : Byte := ((ends.map f).find? (· != stOk)).getD stOk
  let ctx (f : Nat → Byte) : Byte := first fun e => if e.kind = 2 then f e.ctx else stOk
  let checks : List Byte :=
    [first fun e => e.early s p n,
      ctx fun x => if s.ownsCtx p x then stOk else stParam,
      ctx fun x => if copyState s p x c = .free ∨ copyState s p x c = .closing then stConflict else stOk,
      ctx fun x => if copyState s p x c = .faulted then stData else stOk,
      first fun e => if e.kind = 2 ∧ s.getN Obj.partWinpages (p + 1) * pageSize < e.addr + n then stRange else stOk]
  (checks.find? (· != stOk)).getD stOk

/-- COPY: queue `q` dispatches a COPY, which starts where its checks pass; `hostData` are the bytes of a host source. -/
def execCopy (q : Fin 4096) (hostData : Bytes) (s : State) : Host.Outcome State Fault Refusal :=
  .next (dispatch q 3 0 s fun p c s =>
    let st := copyStatus s p c
    if st ≠ stOk then finish s q c.seq { status := st }
    else
      let data := if c.at 0x24 1 = 1 then padTo (c.at 0x20 4) hostData else []
      s.setPhase q c.seq (.copying data 0 0 stOk))

/-- The pages of a context that a range of its logical bytes touches. -/
def pagesOf (x a n : Nat) : List (Nat × Nat) :=
  (List.range ((a + n + pageSize - 1) / pageSize - a / pageSize)).map fun i => (x, a / pageSize + i)

/-- The contexts and pages that a range of the module's own span leads to (R188). -/
def State.pagesIn (s : State) (p a n : Nat) : List (Nat × Nat) :=
  (s.spanPages p a n).filterMap fun g =>
    match spanPage s p g with
    | .inr y => some y
    | .inl _ => none

/-- The keeper reads the map entries of pages that a COPY touches, each once; whether one of them could be read in neither copy (R194, R200;
log 171). -/
def readMap (s : State) : List (Nat × Nat) → State × Bool
  | [] => (s, false)
  | (x, page) :: rest =>
    match mapFails s x page with
    | (s, true) => (s, true)
    | (s, false) => readMap s rest

/-- The mapped ones of some pages. -/
def State.mapped (s : State) (xs : List (Nat × Nat)) : List (Nat × Nat) := xs.filter fun y => ((s.ctx y.1).frame y.2).isSome

/-- Bytes of a context by logical byte (R310); COPY reads the map through the keeper (R194). -/
def readCtx (s : State) (x a n : Nat) : State × Byte × Bytes :=
  match readMap s (pagesOf x a n) with
  | (s, true) => (s, stData, [])
  | (s, false) =>
    (pieces4K a n).foldl (fun (s, st, acc) (lo, m) =>
      if st ≠ stOk then (s, st, acc)
      else
        let (s, st, bs) := readPage 5 s x (lo / pageSize) (lo % pageSize) m
        (s, st, acc ++ bs)) (s, stOk, [])

/-- Bytes that a COPY writes to a page of a context; a page that finds no frame stops it with NO_FRAMES (R191, R312, R496). -/
def copyPage (s : State) (p x page off : Nat) (bs : Bytes) : State × Byte :=
  match mapPage s p x page with
  | (s, .inl st) => (s, if st = stRange then stNoFrames else st)
  | (s, .inr _) => writePage s p x page off bs

/-- The next piece of bytes that a COPY writes at `a`, where none before it failed, by the write `w` of a piece at an address. -/
def copyPiece (w : State → Nat → Bytes → State × Byte) (a : Nat) (bs : Bytes) (x : State × Byte) (piece : Nat × Nat) : State × Byte :=
  if x.2 ≠ stOk then x else w x.1 piece.1 (sub bs (piece.1 - a) piece.2)

/-- Bytes written to a context by logical byte, in ascending order, up to the first error (R191, R496). -/
def writeCtx (s : State) (p x a : Nat) (bs : Bytes) : State × Byte :=
  match readMap s (s.mapped (pagesOf x a bs.length)) with
  | (s, true) => (s, stData)
  | (s, false) => (pieces4K a bs.length).foldl (copyPiece (fun s lo => copyPage s p x (lo / pageSize) (lo % pageSize)) a bs) (s, stOk)

/-- Bytes of the module's own view that a COPY reads by a rack address, the map of the span with them (R194, R277). -/
def readOwn (s : State) (p a n : Nat) : State × Byte × Bytes :=
  match readMap s (s.pagesIn p a n) with
  | (s, true) => (s, stData, [])
  | (s, false) => readRange 5 s p a n

/-- A piece that a COPY writes into the module's own view: in the span, to its context's page (R188, R277). -/
def writeView (s : State) (p lo : Nat) (bs : Bytes) : State × Byte :=
  match resolve s p lo with
  | some (.span page off) =>
    match spanPage s p page with
    | .inr (x, lp) => copyPage s p x lp off bs
    | .inl st => (s, st)
  | some t => writeTarget s p bs t
  | none => (s, stRange)

/-- Bytes that a COPY writes by a rack address into the module's own view, in ascending order, up to the first error; it reads the map of the span
(R194, R277, R496). -/
def writeOwn (s : State) (p a : Nat) (bs : Bytes) : State × Byte :=
  match readMap s (s.mapped (s.pagesIn p a bs.length)) with
  | (s, true) => (s, stData)
  | (s, false) => (pieces4K a bs.length).foldl (copyPiece (fun s lo => writeView s p lo) a bs) (s, stOk)

/-- The bytes of a COPY's source; `data` are those of a host or a remote one. -/
def CopyEnd.read (e : CopyEnd) (s : State) (p n : Nat) (data : Bytes) : State × Byte × Bytes :=
  match e.kind with
  | 0 => readRange 5 s p e.addr n
  | 2 => readCtx s e.ctx e.addr n
  | 3 =>
    match rackEnd s e.rack e.addr with
    | some (.here a) => readOwn s p a n
    | _ => (s, stOk, data)
  | _ => (s, stOk, data)

/-- A COPY's bytes written to its destination; a remote one has been written by its requests. -/
def CopyEnd.write (e : CopyEnd) (s : State) (p q : Nat) (bs : Bytes) : State × Byte :=
  match e.kind with
  | 0 => writeRange s p e.addr bs
  | 1 =>
    match (s.queue q).port with
    | some n => (s.send (.hostWrite n (BitVec.ofNat 64 e.addr) bs), stOk)
    | none => (s, stOk)
  | 2 => writeCtx s p e.ctx e.addr bs
  | _ =>
    match rackEnd s e.rack e.addr with
    | some (.here a) => writeOwn s p a bs
    | _ => (s, stOk)

/-- Whether an end of a COPY lies in another module. -/
def CopyEnd.remote (e : CopyEnd) (s : State) : Bool :=
  e.kind == 3 && match rackEnd s e.rack e.addr with
    | some (.module _ _) => true
    | _ => false

/-- A started COPY ends with an error: the contexts it names are FAULTED by an uncorrectable one, and its destination is
undefined, unless a page found no frame (R200, R312, R496). -/
def failCopy (s : State) (p q : Nat) (c : Cmd) (st : Byte) : State :=
  let s := if st = stData then c.named.foldl markFaulted s else s
  let s := if st = stNoFrames then s else spoilCopy s p c
  finish s q c.seq { status := st }

/-- Whether the map entry of a page waits for a channel that is being retrained, in either copy (R366). -/
def mapWaits (s : State) (xs : List (Nat × Nat)) : Bool := xs.any fun y => entryWaits s y.1 y.2

/-- Whether an end of a COPY waits for a channel that is being retrained, as far as its pages are mapped (R366). -/
def CopyEnd.waits (e : CopyEnd) (s : State) (p n : Nat) : Bool :=
  s.raising.retrain.isSome && match e.kind with
  | 0 => rangeWaits s p e.addr n
  | 2 => mapWaits s (pagesOf e.ctx e.addr n) || (pieces4K e.addr n).any fun (lo, m) =>
    match (s.ctx e.ctx).frame (lo / pageSize) with
    | some f => retraining s (f * pageSize + lo % pageSize) m
    | none => false
  | 3 =>
    match rackEnd s e.rack e.addr with
    | some (.here a) => mapWaits s (s.pagesIn p a n) || rangeWaits s p a n
    | _ => false
  | _ => false

/-- Whether a COPY's destination waits for a channel that is being retrained, the frames that it is to take among what it writes (R366). -/
def CopyEnd.writeWaits (e : CopyEnd) (s : State) (p n : Nat) : Bool :=
  e.waits s p n || match e.kind with
  | 2 => pagesWait s p ((pieces4K e.addr n).map fun (lo, m) => (e.ctx, lo / pageSize, lo % pageSize, m))
  | 3 =>
    match rackEnd s e.rack e.addr with
    | some (.here a) => Sys2Proof.Machine.writeWaits s p a n
    | _ => false
  | _ => false

/-- A COPY whose remote bytes have all been answered for moves its bytes and completes; it waits while a channel that it needs is being
retrained (R313, R366). -/
def finishCopy (s : State) (p q : Nat) (c : Cmd) (data : Bytes) (arrived : Nat) (st : Byte) : State :=
  let n := c.at 0x20 4
  if st ≠ stOk then failCopy s p q c st
  else if (c.source.remote s || c.dest.remote s) && decide (arrived < n) || c.source.waits s p n || c.dest.writeWaits s p n then s
  else match c.source.read s p n data with
    | (s, st, bs) =>
      if st ≠ stOk then failCopy s p q c st
      else match c.dest.write s p q bs with
        | (s, st) => if st ≠ stOk then failCopy s p q c st else finish s q c.seq { result := BitVec.ofNat 32 n }

/-! ## GRAMMAR (R221 to R224) -/

/-- Whether a state of a grammar image keeps R222 and R224. -/
def validGrammarState (img : Bytes) (i : Nat) : Bool :=
  let e := field img 0x1C 4 + 16 * i
  let states := field img 8 4
  let base := field img e 1
  let n := field img (e + 2) 2
  let first := field img (e + 4) 4
  let x (j : Nat) : Nat := field img (field img 0x20 4 + 8 * (first + j)) 8
  (decide (base < field img 5 1) || decide (0xFE ≤ base)) && decide (field img (e + 1) 1 ≤ 1) && decide (n ≤ 4096) &&
    decide (field img (e + 8) 2 < states) && zeros img (e + 10) 6 && (n == 0 || decide (first + n ≤ field img 0x14 4)) &&
    (n == 0 || (List.range n).all fun j =>
      j == 0 || decide (bits (x (j - 1)) 0 18 < bits (x j) 0 18))

/-- Whether an exception of a grammar image keeps R222 and R224. -/
def validException (img : Bytes) (j : Nat) : Bool :=
  let x := field img (field img 0x20 4 + 8 * j) 8
  decide (bits x 0 18 < field img 0x10 4) && bits x 18 13 == 0 && bits x 48 16 == 0 && decide (bits x 32 16 < field img 8 4) && (!bit x 31 || bits x 32 16 == 0)

/-- Whether a base set has no bit at or above the vocabulary. -/
def validBase (img : Bytes) (i : Nat) : Bool :=
  let v := field img 0x10 4
  let bs := sub img (field img 0x18 4 + 32768 * i) 32768
  field bs (v / 8) 1 / 2 ^ (v % 8) == 0 && (bs.drop (v / 8 + 1)).all (· == 0)

/-- Whether a grammar image keeps R222 and R224. A table without entries has to lie in the image too: its offset is not past the image's size
(DESIGN CHOICE, log 169). -/
def validGrammar (img : Bytes) : Bool :=
  let size := field img 0x24 4
  let states := field img 8 4
  let v := field img 0x10 4
  let exs := field img 0x14 4
  field img 0 4 == 0x4D52_4744 && field img 4 1 == 1 && decide (field img 5 1 ≤ 16) && zeros img 6 2 &&
    decide (1 ≤ states ∧ states ≤ 65536) && decide (field img 0xC 4 < states) && decide (16 ≤ v ∧ v ≤ 262144) && v % 16 == 0 &&
    decide (exs ≤ 1048576) && field img 0x18 4 % 16 == 0 && field img 0x1C 4 % 16 == 0 && field img 0x20 4 % 16 == 0 &&
    size % 16 == 0 && decide (64 ≤ size ∧ size ≤ 10485760) && zeros img 0x2C 20 &&
    crcAt (img.take size) 0x28 == BitVec.ofNat 32 (field img 0x28 4) &&
    decide (field img 0x18 4 + 32768 * field img 5 1 ≤ size) && decide (field img 0x1C 4 + 16 * states ≤ size) &&
    decide (field img 0x20 4 + 8 * exs ≤ size) && (List.range (field img 5 1)).all (validBase img) &&
    (List.range states).all (validGrammarState img) && (List.range exs).all (validException img)

/-- A grammar slot's content replaced: its bitmaps leave every mask cache (R221). -/
def setGrammar (s : State) (p k : Nat) (g : Option Grammar) : State :=
  let s := s.setPart p { s.part p with grammars := put none (s.part p).grammars k g }
  let s := upTo 8 (fun u s =>
    s.setSu u { s.su u with masks := (s.su u).masks.filter fun (a, b, _) => !(a == p && b == k) }) s
  s.setN Obj.gramLoaded (p + 1) (setBit (s.getN Obj.gramLoaded (p + 1)) k g.isSome)

/-- GRAMMAR LOAD: a valid image becomes the content of a slot (R221, R222, R224). -/
def execGrammarLoad (q : Fin 4096) (s : State) : Host.Outcome State Fault Refusal :=
  .next (dispatch q 4 1 s fun p c s =>
    let a := c.at 0x18 8
    let fail (s : State) (st : Byte) : State := finish s q c.seq { status := st }
    if !s.inPlain p a 64 then fail s stRange
    else if s.raising.retrain.isSome ∧ rangeWaits s p a (max 64 (field (plainBytes s p a 64) 0x24 4)) then hold s p q c
    else match readRange 9 s p a 64 with
      | (s, st, h) =>
        let size := max 64 (field h 0x24 4)
        if st ≠ stOk then fail s st
        else if !s.inPlain p a size then fail s stRange
        else match readRange 9 s p a size with
          | (s, st, img) =>
            if st ≠ stOk then fail s st
            else if !validGrammar img then fail s stImage
            else
              let g : Grammar :=
                { addr := a, bases := field img 5 1, states := field img 8 4, start := field img 0xC 4, vocab := field img 0x10 4
                  baseOff := field img 0x18 4, stateOff := field img 0x1C 4, excOff := field img 0x20 4 }
              finish (setGrammar s p (c.at 0x10 1) (some g)) q c.seq {})

/-- GRAMMAR EMPTY: a slot holds nothing (R221). -/
def execGrammarEmpty (q : Fin 4096) (s : State) : Host.Outcome State Fault Refusal :=
  .next (dispatch q 4 2 s fun p c s => finish (setGrammar s p (c.at 0x10 1) none) q c.seq {})

/-! ## FENCE and TIMER (R314) -/

/-- FENCE QUEUE: completes once every command accepted before it on its queue has completed. -/
def execFenceQueue (q : Fin 4096) (s : State) : Host.Outcome State Fault Refusal :=
  .next (dispatch q 5 0 s fun p c s => settleWork (start s q c) p)
/-- FENCE PARTITION: completes once every command accepted before it in its partition has completed. -/
def execFencePartition (q : Fin 4096) (s : State) : Host.Outcome State Fault Refusal :=
  .next (dispatch q 5 1 s fun p c s => settleWork (start s q c) p)
/-- TIMER DELAY: starts. -/
def execDelay (q : Fin 4096) (s : State) : Host.Outcome State Fault Refusal :=
  .next (dispatch q 6 1 s fun _ c s => start s q c)
/-- TIMER DEADLINE: starts. -/
def execDeadline (q : Fin 4096) (s : State) : Host.Outcome State Fault Refusal :=
  .next (dispatch q 6 2 s fun _ c s => start s q c)

/-- A command of a queue that has not completed. -/
def State.cmd (s : State) (q seq : Nat) : Option Cmd := (s.queue q).cmds.find? fun c => c.seq == seq && !c.isDone

/-- TIMER_EXPIRY: a started TIMER's delay has passed, or rack time has reached its deadline (R314). -/
def execTimerExpiry (q : Fin 4096) (seq : Nat) (s : State) : Host.Outcome State Fault Refusal :=
  .next (match s.cmd q seq with
  | some c =>
    if c.cls = 6 ∧ c.phase = .started ∧ (c.op = 1 ∨ c.at 0x10 8 ≤ s.now) then finish s q seq {} else s
  | none => s)

/-! ## Completion and timeout (R311, R315) -/

/-- COMMAND_COMPLETION: a started COPY, PARK or CLOSE finishes (R311, R313, R318). -/
def execCommandCompletion (q : Fin 4096) (seq : Nat) (s : State) : Host.Outcome State Fault Refusal :=
  .next (match s.cmd q seq with
  | some c =>
    let p := (s.queue q).part
    match c.phase with
    | .waiting slot upTo => finishWaiting s p q c slot upTo
    | .copying data _ arrived st => finishCopy s p q c data arrived st
    | _ => s
  | none => s)

/-- Whether the condition of a started FENCE or DEADLINE is met (R314, R315). That of a DELAY is met at its TIMER_EXPIRY. -/
def Cmd.met (c : Cmd) (s : State) (p q : Nat) : Bool :=
  c.cls == 5 && fenceMet s p q c || c.cls == 6 && c.op == 2 && decide (c.at 0x10 8 ≤ s.now)

/-- What follows where a command's timer has expired: one that has not started, a COPY, or a FENCE or TIMER whose own condition has not been met
completes with TIMEOUT, and one whose condition has been met with OK; a STEP is stopped; a CONTEXT or GRAMMAR command runs on (R314, R315). -/
def timeoutCmd (s : State) (q seq : Nat) : State :=
  let p := (s.queue q).part
  match s.cmd q seq with
  | none => s
  | some c =>
    match c.phase with
    | .accepted => finish s q seq { status := stTimeout }
    | .copying _ _ _ _ => failCopy s p q c stTimeout
    | .started =>
      if c.cls = 2 then cancelColls (cancelRows (stopStep s p [stTimeout]) p) p
      else if c.cls = 5 ∨ c.cls = 6 then finish s q seq (if c.met s p q then {} else { status := stTimeout })
      else s
    | _ => s

/-- COMMAND_TIMEOUT: a command's timer expires; while no runtime firmware acts, the expiry is kept until it does (R315, R376, R377). -/
def execCommandTimeout (q : Fin 4096) (seq : Nat) (s : State) : Host.Outcome State Fault Refusal :=
  .next (
    if s.serving then timeoutCmd s q seq
    else if (s.cmd q seq).isSome ∧ !s.fw.expired.contains (q.val, seq) then
      { s with fw := { s.fw with expired := s.fw.expired ++ [(q.val, seq)] } }
    else s)

/-- The timers that expired while no firmware acted are acted on (R315, R376). -/
def actExpired (s : State) : State :=
  let xs := s.fw.expired
  xs.foldl (fun s (q, seq) => timeoutCmd s q seq) { s with fw := { s.fw with expired := [] } }

end Sys2Proof.Machine
end

