-- ==== Sys2Proof/Machine/Packets.lean ====
section
/-! DEFINITION. Packets on the Tenon links: routing, queues and credit (R264 to R276), requests and replies (R277 to R281). -/

namespace Sys2Proof.Machine

/-! ## Kinds and classes (R266, R268) -/

/-- READ. -/
def kRead : Byte := 0x01
/-- WRITE. -/
def kWrite : Byte := 0x02
/-- READ_REPLY. -/
def kReadReply : Byte := 0x03
/-- WRITE_REPLY. -/
def kWriteReply : Byte := 0x04
/-- CHUNK. -/
def kChunk : Byte := 0x05
/-- CHUNK_ACK. -/
def kChunkAck : Byte := 0x06
/-- CHUNK_CREDIT. -/
def kChunkCredit : Byte := 0x07
/-- CHUNK_COUNT. -/
def kChunkCount : Byte := 0x08

/-- The class of a kind, which is its VC on a last hop: 0 request, 1 reply, 2 collective (R268). -/
def classOf (k : Byte) : Nat := if k.toNat ≤ 2 then 0 else if k.toNat ≤ 4 then 1 else 2

/-- A header with every field zero. -/
def blankHeader : Header :=
  { kind := 0, vc := 0, flits := 0, dstRack := 0, dstMod := 0, srcRack := 0, srcMod := 0, hop := 0, job := 0, epoch := 0, gen := 0
    stamp := 0, tag := 0, addr := 0, len := 0, status := 0, group := 0, member := 0, seq := 0, chunk := 0, offset := 0, reserved := 0 }

/-- Packet data in flits. -/
def flitsOf (n : Nat) : Nat := (n + 63) / 64

/-! ## Routes (R274, R277) -/

/-- The coordinate of a module index on an axis. -/
def coordOn (i axis : Nat) : Nat := i / 4 ^ axis % 4
/-- The first axis on which two indices differ, in the order X, Y, Z. -/
def firstAxis (i j : Nat) : Option Nat := (List.range 3).find? fun a => coordOn i a != coordOn j a
/-- The last axis on which two indices differ. -/
def lastAxis (i j : Nat) : Option Nat := [2, 1, 0].find? fun a => coordOn i a != coordOn j a
/-- The axis that ROUTE_RACKAXIS names for another rack. -/
def State.rackAxis (s : State) (rack : Nat) : Option Nat :=
  let a := field (s.getB Obj.routeRackaxis 0) rack 1
  if 1 ≤ a ∧ a ≤ 3 then some (a - 1) else none
/-- ROUTE_RACK. -/
def State.rack (s : State) : Nat := s.getN Obj.routeRack 0

/-- The axis, hop target and VC of a packet's next hop from this module; none for another rack unless the destination has this module's own index
there (R24, R269, R274, R277). A chunk's axis is that of the module indices too (R250; DEDUCED, log 170). -/
def route (s : State) (h : Header) : Option (Nat × Nat × Nat) :=
  match s.ownIndex with
  | none => none
  | some me =>
    let dst := h.dstMod.toNat
    if h.dstRack.toNat ≠ s.rack then
      if dst = me then (s.rackAxis h.dstRack.toNat).map fun a => (a, me, classOf h.kind) else none
    else match firstAxis me dst with
      | none => none
      | some a =>
        let hop := me - coordOn me a * 4 ^ a + coordOn dst a * 4 ^ a
        some (a, hop, classOf h.kind + (if hop = dst then 0 else 3))

/-- The link within its axis that a packet uses (R250, R270). -/
def linkBit (h : Header) : Nat :=
  if h.kind.toNat ≤ 4 then bits h.addr.toNat 12 1
  else if h.kind = kChunk ∨ h.kind = kChunkAck then (h.chunk.toNat + h.member.toNat) % 2 else 0

/-- Whether a link carries packets: it is UP, and the limits of REDUCED service are lifted (R291, R358). -/
def State.linkUp (s : State) (l : Nat) : Bool := s.getN Obj.linkState (l + 1) == 3 && s.service == 3

/-- Whether a link's lanes carry flits: IDENT or UP (R291), and the module sends (R293). -/
def State.linkLive (s : State) (l : Nat) : Bool :=
  let st := s.getN Obj.linkState (l + 1)
  (st == 2 || st == 3) && !s.pins.departed && !s.pins.inReset

/-! ## Receive buffers and credit (R268, R272, R285) -/

/-- Six counts of a link. -/
def sixCounts (m : Map Half) : List Half := (List.range 6).map (look 0 m)

/-- A CREDIT control flit leaves a link, with the freed counts (R272). -/
def sendFreed (s : State) (l : Nat) : State :=
  (s.setLink l { s.link l with sinceCredit := [] }).send (.credit l (sixCounts (s.link l).freed))

/-- A CREDIT follows 256 flits of one VC freed since the last one (R272). -/
def creditDue (s : State) (l : Nat) : State :=
  if s.linkLive l ∧ (List.range 6).any fun v => decide (256 ≤ look 0 (s.link l).sinceCredit v) then sendFreed s l else s

/-- `f` flits leave the receive buffer of a VC (R272). -/
def noteFreed (s : State) (l v f : Nat) : State :=
  let y := s.link l
  creditDue (s.setLink l { y with
    freed := put 0 y.freed v (look 0 y.freed v + BitVec.ofNat 16 f)
    sinceCredit := put 0 y.sinceCredit v (look 0 y.sinceCredit v + f) }) l

/-- A forwarded packet leaves the receive buffer in which it lay (R268, R285). -/
def freeCame (s : State) (x : Packet) : State :=
  match x.came with
  | some (l, v) => noteFreed s l v (1 + x.h.flits.toNat)
  | none => s

/-- A packet queued on the chosen link of its axis, or on the other one; discarded and counted where neither is UP (R270,
R292). -/
def queueOn (s : State) (axis bit : Nat) (x : Packet) : State :=
  let push (l : Nat) : State :=
    let y := s.link l
    s.setLink l { y with out := put [] y.out x.h.vc.toNat (look [] y.out x.h.vc.toNat ++ [x]) }
  let l := 2 * axis + bit
  let l' := 2 * axis + (1 - bit)
  if s.linkUp l then push l else if s.linkUp l' then push l' else freeCame (s.count Obj.linkFwdDiscard 0 64) x

/-- A packet on its next hop, by the link of its axis that R270 gives it or by the one of `prefer` (R253). -/
def sendOn (s : State) (x : Packet) (prefer : Option Nat) : State :=
  match route s x.h with
  | none => s
  | some (axis, hop, vc) =>
    queueOn s axis (prefer.getD (linkBit x.h)) { x with h := { x.h with hop := BitVec.ofNat 8 hop, vc := BitVec.ofNat 8 vc } }

/-- A packet of this module, for a partition: its source, job and generation, and its flits (R265). -/
def sendOwn (s : State) (part bay : Nat) (h : Header) (data : Bytes) (prefer : Option Nat := none) : State :=
  let h := { h with
    flits := BitVec.ofNat 8 (flitsOf data.length), srcRack := BitVec.ofNat 8 s.rack
    srcMod := BitVec.ofNat 8 ((s.ownIndex).getD 0) }
  sendOn s { h, data, part, bay } prefer

/-- The job in force for a partition: that of the step that runs, or JOB_ID (R276, R295; DEDUCED, log 64). -/
def State.jobOf (s : State) (p : Nat) : Nat :=
  match (s.part p).step with
  | some r => r.job
  | none => s.getN Obj.jobId (p + 1)

/-- A header with a partition's job, epoch and generation (R265). -/
def headerFor (s : State) (p : Nat) (h : Header) : Header :=
  { h with
    job := BitVec.ofNat 16 (s.jobOf p), epoch := BitVec.ofNat 12 (s.getN Obj.jobEpoch (p + 1))
    gen := BitVec.ofNat 12 (s.getN Obj.partGen (p + 1)) }

/-- The header of a collective packet of a partition: these kinds do not use the generation (R265). -/
def collHeader (s : State) (p : Nat) : Header := { headerFor s p blankHeader with gen := 0 }

/-! ## Transmission (R271, R272) -/

/-- The receive buffer of a VC that the far end advertises (R286). -/
def Link.buffer (y : Link) (v : Nat) : Nat :=
  match y.far with
  | some i => ((i.bufs)[v]?.getD 0).toNat
  | none => 0

/-- Flits sent on a VC and not freed, modulo 65,536 (R272). -/
def Link.outstanding (y : Link) (v : Nat) : Nat := (look 0 y.sent v - look 0 y.farFreed v).toNat

/-- The packet of a VC that goes next: the first of the partition whose turn it is (R271). -/
def Link.head (y : Link) (v : Nat) : Option Packet :=
  let ps := look [] y.out v
  let t := look 0 y.turn v
  let least (l : List Packet) : Option Nat := l.foldl (fun m x => some (match m with | some k => min k x.part | none => x.part)) none
  match least (ps.filter fun x => decide (t ≤ x.part)) with
  | some k => ps.find? (·.part == k)
  | none => (least ps).bind fun k => ps.find? (·.part == k)

/-- Whether a packet's source is this module. -/
def State.ownPacket (s : State) (h : Header) : Bool :=
  decide (h.srcRack.toNat = s.rack) && s.ownIndex == some h.srcMod.toNat

/-- Whether a VC's next packet may leave: the link has credit for all of its flits (R271, R272). -/
def Link.eligible (y : Link) (v : Nat) : Bool :=
  match y.head v with
  | none => false
  | some x => decide (y.outstanding v + (1 + x.h.flits.toNat) ≤ y.buffer v)

/-- The VC that a link serves next: the first from its turn on that may send, in round robin (R271). -/
def Link.nextVc (y : Link) : Option Nat := ((List.range 6).map fun i => (y.vcTurn + i) % 6).find? y.eligible

/-- The collective context of a partition that a collective packet belongs to (R257). -/
def matching (s : State) (p : Nat) (h : Header) : Option (Nat × Coll) :=
  (List.range 32).findSome? fun i =>
    match s.coll i with
    | some x => if x.part = p ∧ x.req.group = h.group.toNat ∧ x.seq = h.seq.toNat then some (i, x) else none
    | none => none

/-- A chunk's packet leaves by link `l`, which its collective remembers (R253). -/
def noteUsed (s : State) (l : Nat) (x : Packet) : State :=
  if x.h.kind ≠ kChunk ∨ !s.ownPacket x.h then s
  else match matching s x.part x.h with
    | none => s
    | some (i, c) => s.setColl i (some { c with peers := c.peers.map fun d =>
        if d.rack = x.h.dstRack.toNat ∧ d.module = x.h.dstMod.toNat then { d with used := put none d.used x.h.chunk.toNat (some l) } else d })

/-- LINK_TRANSMIT: link `l` sends the next packet of the VC whose turn it is, where the link is UP and has credit for all of its flits; a packet of
this module takes its stamp as it leaves, and a forwarded one leaves its receive buffer; a link with nothing to send sends IDLE (R265, R267,
R268, R271, R272). -/
def execLinkTransmit (l : Fin 6) (vc : Fin 6) (s : State) : Host.Outcome State Fault Refusal :=
  let y := s.link l
  .next (
    if !s.linkLive l then s
    else if !s.linkUp l || y.nextVc.isNone then s.send (.idle l)
    else match y.head vc with
    | none => s
    | some x =>
      if y.nextVc ≠ some vc.val then s
      else
        let h := if s.ownPacket x.h then { x.h with stamp := s.stamp } else x.h
        freeCame (noteUsed ((s.setLink l { y with
          out := put [] y.out vc ((look [] y.out vc).erase x)
          sent := put 0 y.sent vc (look 0 y.sent vc + BitVec.ofNat 16 (1 + x.h.flits.toNat))
          turn := put 0 y.turn vc (x.part + 1), vcTurn := (vc.val + 1) % 6 }).send (.packet l { x with h })) l x) x)

/-! ## Arrival (R264, R273, R276) -/

/-- Whether a packet of kind `kind` that arrives on link `l` keeps R264. -/
def validPacket (l : Nat) (kind : Byte) (h : Header) : Bool :=
  let carries := kind = kWrite ∨ kind = kChunk ∨ (kind = kReadReply ∧ h.status = 0)
  h.kind == kind && h.reserved == 0 && decide (h.vc.toNat < if l / 2 = 2 then 3 else 6) &&
    h.flits.toNat == (if carries then flitsOf h.len.toNat else 0)

/-- `f` flits of a VC have arrived, whether they are stored or discarded (R273). -/
def noteArrival (s : State) (l v f : Nat) : State :=
  let y := s.link l
  s.setLink l { y with arrived := put 0 y.arrived v (look 0 y.arrived v + BitVec.ofNat 16 f) }

/-- The partition that holds a job: one that has been formed (R50, R276). -/
def State.jobPart (s : State) (job : Half) : Option Nat :=
  if job = 0xFFFF then none
  else (List.range 8).find? fun p => s.pstate p != psAbsent && s.pstate p != psRaising && s.jobOf p == job.toNat

/-- The reply to a request, queued by its first-hop station (R265, R280). -/
def sendReply (s : State) (part : Nat) (h : Header) (status : Byte) (data : Bytes) : State :=
  let kind := if h.kind = kRead then kReadReply else kWriteReply
  sendOwn s part 64 { blankHeader with
    kind, dstRack := h.srcRack, dstMod := h.srcMod, job := h.job, epoch := h.epoch, gen := h.gen, tag := h.tag, addr := h.addr,
    len := BitVec.ofNat 32 data.length, status } data

/-- What a packet that reaches its destination does: `serve` for a request or a collective packet of a partition that holds its
job, with its epoch (R276). -/
def deliver (s : State) (h : Header) (serve : Nat → State → State) : State :=
  let request := classOf h.kind = 0
  match s.jobPart h.job with
  | none => if request then sendReply s 8 h stNoRoute [] else s
  | some p =>
    if h.epoch.toNat ≠ s.getN Obj.jobEpoch (p + 1) then s.count Obj.linkEpochDrop 0 64 else serve p s

/-- A packet of kind `kind` arrives at link `l`: it is discarded, forwarded, or delivered here (R264, R274 to R276). One that is forwarded stays in its
receive buffer until it leaves; the buffers of the last hops drain into the serving unit, the reply pool and the engine at once (R285). -/
def arrive (l : Fin 6) (kind : Byte) (h : Header) (data : Bytes) (s : State) (serve : Nat → State → State) : State :=
  if !s.linkUp l ∨ s.pins.departed ∨ s.pins.inReset then s
  else
    let f := 1 + h.flits.toNat
    let s := noteArrival s l h.vc.toNat f
    let free (s : State) : State := noteFreed s l h.vc.toNat f
    if !validPacket l kind h then free (s.count Obj.linkPktDiscard (l + 1) 64)
    else if s.ownIndex ≠ some h.hop.toNat then free (s.count Obj.linkFwdDiscard 0 64)
    else if s.ownIndex = some h.dstMod.toNat ∧ h.dstRack.toNat = s.rack then deliver (free s) h serve
    else
      let ahead : Bool := match route s h with
        | some (axis, _, _) => decide (l / 2 < axis)
        | none => false
      if h.srcRack.toNat = s.rack ∧ h.dstRack.toNat = s.rack ∧ ahead then
        sendOn (s.count Obj.linkForwarded 0 64) { h, data, part := 8, bay := 64, came := some (l, h.vc.toNat) } none
      else free (s.count Obj.linkFwdDiscard 0 64)

/-! ## Serving requests (R280, R414, R420) -/

/-- Whether a request's stamp lies too far behind: more than LINK_REQ_TO less 2 µs; without a valid rack time no
request is taken so (R280, R431, R475). -/
def stale (s : State) (h : Header) : Bool :=
  let d := (s.stamp - h.stamp).toNat
  s.getN Obj.clkTimeOk 0 == 1 && h.srcRack.toNat == s.rack && decide (d < 2 ^ 31) && decide (s.getN Obj.linkReqTo 0 - 2 < d)

/-- Whether a partition is fenced: it answers every request with FENCED and discards every collective packet. It resets, is shored, waits for its
job, or is being released (00_scope.md, R280, R414, R420, R425, R442; log 158). -/
def State.fenced (s : State) (p : Nat) : Bool :=
  s.pstate p == psResetting || s.pstate p == psShored || s.getN Obj.jobWait (p + 1) == 1 || (s.part p).releasing

/-- The access of a request, by the cache slice of the station's bay: the state after it, its status and a READ's bytes; none while it waits for a
refill or for a channel that is being retrained (R193, R280, R366). An uncorrectable burst that it meets has reader kind 2, the mover's (R200;
DEDUCED, log 179). One that is still to be made when the controllers' clocks rest ends with TIMEOUT (R476; log 145). -/
def serveAccess (s : State) (station : Nat) (h : Header) (p : Nat) (data : Bytes) : Option (State × Byte × Bytes) :=
  let a := h.addr.toNat
  let n := h.len.toNat
  if s.resting then some (crossStopped false s, stTimeout, [])
  else if (if h.kind = kRead then rangeWaits s p a n else writeWaits s p a n) then none
  else (hitPages s (linkBay (2 * station)) p (s.spanPages p a n)).map fun s =>
    if h.kind = kRead then readRange 2 s p a n
    else match writeRange s p a (padTo n data) with
      | (s, st) => (s, st, [])

/-- A request that a station serves: its address is checked before any effect, its access is made as soon as it can be, and the reply waits to be
sent (R28, R48, R280). -/
def serveRequest (l : Fin 6) (h : Header) (data : Bytes) (p : Nat) (s : State) : State :=
  let hold (s : State) (st : Byte) (bs : Bytes) (due : Option Bytes) : State :=
    { s with net := { s.net with serving := s.net.serving ++ [⟨h, l / 2, p, st, if st = stOk then bs else [], due⟩] } }
  if stale s h then s
  else if s.fenced p || s.resting then hold s stFenced [] none
  else if !rangeOk s p h.addr.toNat h.len.toNat fun _ => true then hold s stRange [] none
  else match serveAccess s (l / 2) h p data with
    | some (s, st, bs) => hold s st bs none
    | none => hold s stOk [] (some data)

/-- READ: a READ packet arrives at link `l` (R276, R280). -/
def execRead (l : Fin 6) (h : Header) (s : State) : Host.Outcome State Fault Refusal :=
  .next (arrive l kRead h [] s (serveRequest l h []))
/-- WRITE: a WRITE packet arrives at link `l` (R276, R280). -/
def execWrite (l : Fin 6) (h : Header) (data : Bytes) (s : State) : Host.Outcome State Fault Refusal :=
  .next (arrive l kWrite h data s (serveRequest l h data))

/-- REPLY_SEND: a serving unit finishes a request, once its access could be made, and sends its reply (R280). -/
def execReplySend (i : Nat) (s : State) : Host.Outcome State Fault Refusal :=
  let reply (s : State) (x : Serving) (st : Byte) (bs : Bytes) : State :=
    releaseCheck (sendReply { s with net := { s.net with serving := s.net.serving.eraseIdx i } } x.part x.h st bs) x.part
  .next (match (s.net.serving)[i]? with
    | none => s
    | some x =>
      match x.due with
      | none => reply s x x.status x.data
      | some data =>
        match serveAccess s x.station x.h x.part data with
        | none => s
        | some (s, st, bs) => reply s x st (if st = stOk then bs else []))

/-! ## Replies (R279) -/

/-- A request is outstanding no longer: its reservation is free (R278). -/
def dropRequest (s : State) (r : Request) : State :=
  { s with net := { s.net with
    requests := s.net.requests.filter (·.tag != r.tag)
    pools := put 0 s.net.pools r.station (look 0 s.net.pools r.station - r.flits) } }

/-- Bytes put into a buffer of answers at an offset. -/
def place (bs : Bytes) (off : Nat) (new : Bytes) : Bytes :=
  patch (if bs.length < off + new.length then bs ++ zeroBytes (off + new.length - bs.length) else bs) off new

/-- Whoever waits for a request learns its status and, for a READ, its bytes (R278, R279). -/
def answer (s : State) (r : Request) (st : Byte) (data : Bytes) : State :=
  let first (old : Byte) : Byte := if old = stOk then st else old
  match r.who with
  | .gone => s
  | .xfer c id =>
    let k := s.core c
    match k.xfer id with
    | none => s
    | some x =>
      let x := { x with status := first x.status }
      s.setCore c (k.setXfer (if r.isRead then { x with arrived := x.arrived + r.len, data := place x.data r.offset data }
        else { x with warrived := x.warrived + r.len }))
  | .copy q seq =>
    match s.cmd q seq with
    | none => s
    | some c =>
      match c.phase with
      | .copying bs next arrived old =>
        s.setPhase q seq (.copying (if r.isRead then place bs r.offset data else bs) next (arrived + r.len) (first old))
      | _ => s

/-- How long a FENCE reset waits for replies, in ns (R415). -/
def edgeLimit : Nat := 10_000_000

/-- Whether a reply's generation matches its request: it is the partition's, or the reset that advanced it waits for replies in
FENCE mode, which it does for 10 ms (R279, R415; DEDUCED, log 46). -/
def genOk (s : State) (r : Request) (h : Header) : Bool :=
  h.gen == r.gen && (r.gen.toNat == s.getN Obj.partGen (r.part + 1) ||
    (s.pstate r.part == psResetting && (s.part r.part).edgeWait && decide (s.uptime < (s.part r.part).resetAt.toNat + edgeLimit)))

/-- A reply is matched to its request, or discarded and counted (R279). -/
def matchReply (h : Header) (data : Bytes) (_p : Nat) (s : State) : State :=
  match s.net.requests.find? (·.tag == h.tag) with
  | none => s.count Obj.linkStaleReply 0 64
  | some r =>
    if !genOk s r h ∨ r.isRead ≠ (h.kind = kReadReply) then s.count Obj.linkStaleReply 0 64
    else answer (dropRequest s r) r h.status (padTo r.len data)

/-- READ_REPLY: a READ_REPLY arrives at link `l` (R276, R279). -/
def execReadReply (l : Fin 6) (h : Header) (data : Bytes) (s : State) : Host.Outcome State Fault Refusal :=
  .next (arrive l kReadReply h data s (matchReply h data))
/-- WRITE_REPLY: a WRITE_REPLY arrives at link `l` (R276, R279). -/
def execWriteReply (l : Fin 6) (h : Header) (s : State) : Host.Outcome State Fault Refusal :=
  .next (arrive l kWriteReply h [] s (matchReply h []))

/-- REQUEST_TIMEOUT: a request's timer expires: whoever waits learns TIMEOUT, the reservation is free and the tag is quarantined
(R278). -/
def execRequestTimeout (tag : Word) (s : State) : Host.Outcome State Fault Refusal :=
  .next (match s.net.requests.find? (·.tag == tag) with
    | none => s
    | some r =>
      let s := dropRequest s r
      answer { s with net := { s.net with quarantine := s.net.quarantine ++ [tag] } } r stTimeout (zeroBytes r.len))

/-- TAG_QUARANTINE_END: a tag may be used again (R278). -/
def execTagQuarantineEnd (tag : Word) (s : State) : Host.Outcome State Fault Refusal :=
  .next { s with net := { s.net with quarantine := s.net.quarantine.erase tag } }

/-! ## Issuing requests (R270, R278, R281) -/

/-- Whether a tag is in use or quarantined. -/
def Net.taken (n : Net) (t : Word) : Bool := n.requests.any (·.tag == t) || n.quarantine.contains t

/-- The first free tag from `t` on, among as many as can be taken. -/
def Net.freeTag (n : Net) (t : Word) : Nat → Word
  | 0 => t
  | k + 1 => if n.taken t then n.freeTag (t + 1) k else t

/-- How many request packets of this module wait at a station, all of them and those of a bay (R281). -/
def queuedRequests (s : State) (axis : Nat) (bay : Nat) : Nat × Nat :=
  let ps := ([2 * axis, 2 * axis + 1].flatMap fun l => ((s.link l).out).flatMap (·.2)).filter fun x =>
    classOf x.h.kind == 0 && s.ownPacket x.h
  (ps.length, (ps.filter (·.bay == bay)).length)

/-- A request for the bytes from `a` of a module of a rack: it needs room in the reply pool of its reply's last hop and in its
first station's queue; none where it has to wait (R278, R281). -/
def issueRequest (s : State) (p bay : Nat) (who : Asker) (isRead : Bool) (rack i a n off : Nat) (data : Bytes) : Option State :=
  let h := headerFor s p blankHeader
  let h := { h with
    kind := if isRead then kRead else kWrite, dstRack := BitVec.ofNat 8 rack, dstMod := BitVec.ofNat 8 i
    addr := BitVec.ofNat 64 a, len := BitVec.ofNat 32 n }
  let last := if rack = s.rack then (s.ownIndex).bind fun me => lastAxis i me else s.rackAxis rack
  match route s h, last with
  | some (axis, _, _), some station =>
    let flits := if isRead then 1 + flitsOf n else 1
    let (all, mine) := queuedRequests s axis bay
    if 16384 < look 0 s.net.pools station + flits ∨ 128 ≤ all ∨ (bay < 64 ∧ 2 ≤ mine) then none
    else
      let tag := s.net.freeTag s.net.nextTag (s.net.requests.length + s.net.quarantine.length)
      let r : Request := { tag, who, part := p, gen := h.gen, station, flits, isRead, offset := off, len := n }
      let s := { s with net := { s.net with
        nextTag := tag + 1, requests := s.net.requests ++ [r], pools := put 0 s.net.pools station (look 0 s.net.pools station + flits) } }
      some (sendOwn s p bay { h with tag } data)
  | _, _ => none

/-- The length of the piece of a remote transfer from byte `off`: up to the next aligned 4 KiB of the remote address (R270). -/
def pieceLen (addr off len : Nat) : Nat := min (len - off) (4096 - (addr + off) % 4096)

/-- A core's transfer asks for its next remote piece. -/
def requestXfer (s : State) (c id : Nat) : State :=
  let k := s.core c
  match k.xfer id, s.partOf (bayOf c) with
  | some x, some p =>
    if x.send ∨ !x.started ∨ x.status ≠ stOk then s
    else match moverPlace s x.src, moverPlace s x.dst with
      | some (.module i a), dst =>
        if x.next < x.len then
          let n := pieceLen a x.next x.len
          match issueRequest s p (bayOf c) (.xfer c id) true s.rack i (a + x.next) n x.next [] with
          | some s => s.setCore c ((s.core c).setXfer { x with next := x.next + n })
          | none => s
        else match dst with
          | some (.module i b) => (pushXfer s p c x i b x.data).getD s
          | _ => s
      | some (.here a), some (.module i b) =>
        let n := pieceLen b x.wnext x.len
        if rangeWaits s p (a + x.wnext) n then s
        else match hitPages s (bayOf c) p (s.spanPages p (a + x.wnext) n) with
        | none => s
        | some s' =>
          match readRange 2 s' p (a + x.wnext) n with
          | (s', st, bs) =>
            if st ≠ stOk then s'.setCore c ((s'.core c).setXfer { x with status := st })
            else (pushXfer s' p c x i b (zeroBytes x.wnext ++ bs)).getD s
      | _, _ => s
  | _, _ => s
where
  /-- A transfer writes its next remote piece, from the bytes of its source; none where it has to wait. -/
  pushXfer (s : State) (p c : Nat) (x : Xfer) (i b : Nat) (bytes : Bytes) : Option State :=
    if x.len ≤ x.wnext ∨ (x.next ≠ 0 ∧ x.arrived < x.len) then none
    else
      let n := pieceLen b x.wnext x.len
      (issueRequest s p (bayOf c) (.xfer c x.id) false s.rack i (b + x.wnext) n x.wnext (sub bytes x.wnext n)).map fun s =>
        s.setCore c ((s.core c).setXfer { x with wnext := x.wnext + n })

/-- A COPY asks for, or writes, its next remote piece (R277). -/
def requestCopy (s : State) (q seq : Nat) : State :=
  let p := (s.queue q).part
  match s.cmd q seq with
  | none => s
  | some c =>
    let len := c.at 0x20 4
    match c.phase with
    | .copying data next arrived st =>
      if st ≠ stOk ∨ len ≤ next then s
      else if c.source.remote s then
        match rackEnd s c.source.rack c.source.addr with
        | some (.module i a) =>
          let n := pieceLen a next len
          match issueRequest s p 64 (.copy q seq) true c.source.rack i (a + next) n next [] with
          | some s => s.setPhase q seq (.copying data (next + n) arrived st)
          | none => s
        | _ => s
      else if c.dest.remote s then
        match rackEnd s c.dest.rack c.dest.addr with
        | some (.module i a) =>
          let n := pieceLen a next len
          let src := { c.source with addr := c.source.addr + next }
          if src.waits s p n then s
          else match src.read s p n (sub data next n) with
          | (s, e, bs) =>
            if e ≠ stOk then s.setPhase q seq (.copying data next arrived e)
            else match issueRequest s p 64 (.copy q seq) false c.dest.rack i (a + next) n next bs with
              | some s => s.setPhase q seq (.copying data (next + n) arrived st)
              | none => s
        | _ => s
      else s
    | _ => s

/-- REMOTE_REQUEST: a started transfer of core `unit`, or the COPY `id` of queue `unit`, issues its next request, once its reply's
space is reserved (R277, R278, R281). -/
def execRemoteRequest (forCopy : Bool) (unit : Fin 8192) (id : Nat) (s : State) : Host.Outcome State Fault Refusal :=
  .next (if forCopy then requestCopy s unit id else requestXfer s unit id)

end Sys2Proof.Machine
end

