-- ==== Sys2Proof/Machine/Truss.lean ====
section
/-! DEFINITION. The Truss engine: admission, chunks, folds, signalling and aborts (R231 to R259). -/

namespace Sys2Proof.Machine

/-! ## Status codes (R256) -/

/-- COLL_INVALID. -/
def csInvalid : Byte := 0x10
/-- COLL_COUNT. -/
def csCount : Byte := 0x11
/-- COLL_EPOCH. -/
def csEpoch : Byte := 0x12

/-! ## Requests (R235) -/

/-- The fields of a request. -/
def reqOf (b : Bytes) : CollReq :=
  { op := field b 0 1, fmt := field b 1 1, group := field b 2 1, depth := field b 3 1, ticket := field b 4 2, chunk := field b 6 1
    len := field b 8 4, keys := field b 0xC 4, src := field b 0x10 2, dst := field b 0x12 2, stg := field b 0x14 2, key := field b 0x16 2
    cap := field b 0x18 4, cntOff := field b 0x1C 4, bays := BitVec.ofNat 64 (field b 0x20 8), rows := BitVec.ofNat 8 (field b 0x28 1)
    flagOff := field b 0x2C 4, flagBase := field b 0x30 4, doneOff := field b 0x34 4, tc := field b 0x38 4 }

/-- The chunk size C. -/
def CollReq.size (r : CollReq) : Nat := 1024 * 2 ^ r.chunk
/-- The rows of a chunk of DISPATCH or RETURN (R248). -/
def CollReq.perChunk (r : CollReq) : Nat := r.size / r.len
/-- The chunks of a shard (R248). -/
def CollReq.shardChunks (r : CollReq) : Nat := (r.len + r.size - 1) / r.size
/-- Whether the op moves keyed rows: DISPATCH or RETURN. -/
def CollReq.keyed (r : CollReq) : Bool := decide (3 ≤ r.op)
/-- The units of a collective over `g` members (R248). -/
def CollReq.units (r : CollReq) (g : Nat) : Nat :=
  match r.op with
  | 1 => r.shardChunks
  | 2 => g * r.shardChunks
  | _ => g

/-- Whether a request keeps R235 in an image with `groups` groups and `layouts` layouts, in a partition of `k` rows; `g` is its
group's size. -/
def validReq (b : Bytes) (groups layouts k g : Nat) : Bool :=
  let r := reqOf b
  let keyed := r.keyed
  decide (1 ≤ r.op ∧ r.op ≤ 4) && (if r.op = 1 then decide (1 ≤ r.fmt ∧ r.fmt ≤ 5) else r.fmt == 0) && decide (r.group < groups) &&
    decide (1 ≤ r.depth ∧ r.depth ≤ 8) && decide (4 ≤ r.chunk ∧ r.chunk ≤ 10) && zeros b 7 1 && r.len % 16 == 0 &&
    decide (16 ≤ r.len) && decide (r.len ≤ if keyed then r.size else 2 ^ 31 - 16) &&
    (if keyed then decide (1 ≤ r.keys ∧ r.keys ≤ 1048576) else r.keys == 0) && decide (r.src < layouts) && decide (r.dst < layouts) &&
    (if r.op = 1 then decide (r.stg < layouts) else r.stg == 0) && (if keyed then decide (r.key < layouts) else r.key == 0) &&
    (if keyed then decide (1 ≤ r.cap ∧ r.cap ≤ 65536) else r.cap == 0) && (if keyed then r.cntOff % 16 == 0 else r.cntOff == 0) &&
    decide (r.bays.toNat < 2 ^ (8 * k)) && zeros b 0x29 3 && r.flagOff % 4 == 0 && decide (r.flagOff < scratchSize) &&
    decide (r.flagBase + r.units g < 0xFFFF_0000) && r.doneOff % 4 == 0 && decide (r.doneOff < scratchSize) &&
    (r.tc == 0 || decide (20 ≤ r.tc ∧ r.tc ≤ 100000)) && zeros b 0x3C 4

/-! ## Groups and members (R23, R231, R232, R295) -/

/-- The rack and module index of a logical coordinate of a partition's job, by the map of the step that runs; none outside its shape. -/
def jobMember (s : State) (p : Nat) (at_ : List Nat) : Option (Nat × Nat) :=
  let m := match (s.part p).step with
    | some r => r.map
    | none => s.getB Obj.jobMap (p + 1)
  let e (a : Nat) : Nat := field m a 1
  let x := at_.getD 0 0
  let y := at_.getD 1 0
  let z := at_.getD 2 0
  if x < e 0 ∧ y < e 1 ∧ z < e 2 then
    let o := 4 + 2 * (x + e 0 * (y + e 1 * z))
    some (field m o 1, field m (o + 1) 1)
  else none

/-- The members of a group, in member-index order; none where one lies outside the job's shape. -/
def membersOf (s : State) (p : Nat) (g : Group) : Option (List (Nat × Nat)) :=
  let ms := (List.range g.size).map fun m => jobMember s p (g.member m)
  if ms.all Option.isSome then some (ms.filterMap id) else none

/-- This module's member index. -/
def ownMember (s : State) (ms : List (Nat × Nat)) : Option Nat :=
  match s.ownIndex with
  | some i => ms.findIdx? (· == (s.rack, i))
  | none => none

/-! ## Layout accesses -/

/-- Bytes of a layout read by the engine; false where a burst is uncorrectable. -/
def readLayout (s : State) (p : Nat) (l : Layout) (u n : Nat) : State × Bool × Bytes :=
  (l.parts u n).foldl (fun (s, ok, acc) (a, m) =>
    let (s, st, bs) := readRange 8 s p a m
    (s, ok && st == stOk, acc ++ bs)) (s, true, [])

/-- Bytes of a layout written by the engine; false where a write is refused. -/
def writeLayout (s : State) (p : Nat) (l : Layout) (u : Nat) (bs : Bytes) : State × Bool :=
  let (s, ok, _) := (l.parts u bs.length).foldl (fun (s, ok, rest) (a, m) =>
    let (s, st) := writeRange s p a (rest.take m)
    (s, ok && st == stOk, rest.drop m)) (s, true, bs)
  (s, ok)

/-- Whether an access of the engine to `n` bytes of a layout waits for a channel that is being retrained (R366). -/
def layoutWaits (s : State) (p : Nat) (x : Layout × Nat × Nat) : Bool :=
  s.raising.retrain.isSome && (x.1.parts x.2.1 x.2.2).any fun (a, m) => rangeWaits s p a m

/-- Whether every byte of a layout lies where a collective may reach it (R48, R155, R189, R238). -/
def layoutOk (s : State) (p : Nat) (l : Layout) : Bool :=
  (l.parts 0 l.size).all fun (a, n) => rangeOk s p a n fun t =>
    match t with
    | .span _ _ => false
    | _ => true

/-- The key table of a collective: member and row of each entry (R245). -/
def keysOf (s : State) (p : Nat) (l : Layout) (k : Nat) : State × Bool × List (Nat × Nat) :=
  let (s, ok, bs) := readLayout s p l 0 (4 * k)
  (s, ok, (List.range k).map fun e => (field bs (4 * e + 3) 1, field bs (4 * e) 3))

/-- The entries that name a member: their index and their row, in table order. -/
def entriesFor (keys : List (Nat × Nat)) (d : Nat) : List (Nat × Nat) :=
  keys.zipIdx.filterMap fun ((m, row), e) => if m = d then some (e, row) else none

/-! ## Signalling (R251, R252) -/

/-- A word that the engine writes into a scratchpad. -/
def writeWord (s : State) (c off v : Nat) : State :=
  let k := s.core c
  if k.badWords.contains (off / 16) ∨ scratchSize < off + 4 then s else s.setCore c (k.store off (leBytes 4 v))

/-- The cores that hold a collective's flag word. -/
def flagCores (s : State) (p : Nat) (r : CollReq) : List Nat :=
  (s.rowsOf p).zipIdx.flatMap fun (y, py) =>
    (List.range 8).flatMap fun x =>
      if r.bays.getLsbD (8 * py + x) then
        ((List.range 8).filter r.rows.getLsbD).flatMap fun row => coresOfRow (8 * (8 * y + x) + row)
      else []

/-- A value written into every flag word of a collective. -/
def writeFlags (s : State) (p : Nat) (r : CollReq) (v : Nat) : State :=
  (flagCores s p r).foldl (fun s c => writeWord s c r.flagOff v) s

/-- How many units from 0 on are complete. -/
def prefixOf (units : List Nat) : Nat → Nat → Nat
  | 0, u => u
  | n + 1, u => if units.contains u then prefixOf units n (u + 1) else u

/-! ## The end of a collective (R247, R252, R255, R257) -/

/-- A collective's context is free, and its sequence is the one most recently finished. -/
def freeColl (s : State) (i : Nat) (x : Coll) : State :=
  let y := s.part x.part
  ((s.setColl i none).setPart x.part { y with seqLast := put none y.seqLast x.req.group (some x.seq) }).setN Obj.trussActive (x.part + 1)
    (s.getN Obj.trussActive (x.part + 1) - 1)

/-- An abort reported to the firmware stops the partition's step (R255). -/
def reportAbort (s : State) (p ticket : Nat) (st : Byte) : State :=
  let s := s.count Obj.trussAborts (p + 1)
  match (s.part p).step with
  | none => s
  | some r =>
    let r := { r with collAbort := if st = stData then r.collAbort else some (r.collAbort.getD (ticket, st)) }
    stopStep (s.setPart p { s.part p with step := some r }) p [if st = stData then stData else stColl]

/-- The abort value in every flag word and the done word of a request (R252). -/
def writeAbort (s : State) (p core : Nat) (r : CollReq) (st : Byte) : State :=
  let v := 0xFFFF_0000 + st.toNat
  writeWord (writeFlags s p r v) core r.doneOff v

/-- A collective's chunks that have not begun to leave are sent no more (R255). -/
def stopSending (s : State) (x : Coll) : State :=
  upTo 6 (fun l s =>
    let y := s.link l
    s.setLink l { y with out := y.out.map fun (v, ps) =>
      (v, ps.filter fun k => !(k.h.kind == kChunk && k.part == x.part && k.h.group.toNat == x.req.group && k.h.seq.toNat == x.seq)) }) s

/-- A collective aborts with a status (R255). -/
def abortColl (s : State) (i : Nat) (x : Coll) (st : Byte) : State :=
  reportAbort (freeColl (writeAbort (stopSending s x) x.part x.core x.req st) i x) x.part x.req.ticket st

/-- Every collective of a partition aborts (R256). -/
def abortColls (s : State) (p : Nat) (st : Byte) : State :=
  upTo 32 (fun i s =>
    match s.coll i with
    | some x => if x.part = p then abortColl s i x st else s
    | none => s) s

/-- What follows a complete unit or an acknowledgement: the flag advances over the complete units, and the collective completes
once every unit is complete and every chunk it sent is acknowledged (R251, R252). -/
def settleColl (s : State) (i : Nat) : State :=
  match s.coll i with
  | none => s
  | some x =>
    let n := x.req.units x.size
    let u := prefixOf x.units n 0
    let s := if x.flagged < u then writeFlags s x.part x.req (x.req.flagBase + u) else s
    let x := { x with flagged := max x.flagged u }
    if u = n ∧ x.peers.all fun d => d.next == d.chunks && (List.range d.chunks).all d.acked.contains then
      freeColl (writeWord s x.core x.req.doneOff (if x.badCount then 0xFFFF_0000 + csCount.toNat else x.req.flagBase + n)) i x
    else s.setColl i (some x)

/-! ## Peers -/

/-- A collective's peer by member index. -/
def Coll.peer (x : Coll) (m : Nat) : Option Peer := x.peers.find? (·.member == m)
/-- A collective with a peer changed. -/
def Coll.setPeer (x : Coll) (d : Peer) : Coll := { x with peers := x.peers.map fun e => if e.member = d.member then d else e }

/-- A collective packet to a peer: a chunk, an acknowledgement, a credit or a count (R257, R265). -/
def sendColl (s : State) (x : Coll) (d : Peer) (kind : Byte) (member chunk offset : Nat) (data : Bytes)
    (prefer : Option Nat := none) : State :=
  let h := collHeader s x.part
  sendOwn s x.part 64 { h with
    kind, dstRack := BitVec.ofNat 8 d.rack, dstMod := BitVec.ofNat 8 d.module, len := BitVec.ofNat 32 data.length
    group := BitVec.ofNat 8 x.req.group, member := BitVec.ofNat 8 member, seq := BitVec.ofNat 16 x.seq
    chunk := BitVec.ofNat 32 chunk, offset := BitVec.ofNat 32 offset } data prefer

/-- The credit granted to a peer, sent as the number of chunks that it may have sent in all (R249; DESIGN CHOICE, log 43). -/
def sendCredit (s : State) (x : Coll) (d : Peer) : State := sendColl s x d kChunkCredit x.me d.granted 0 []

/-- The chunks that a peer may have sent in all once one more of them has landed or been folded. A staging slot takes its chunks in turn, so
REDUCE_SCATTER returns the credit of a chunk folded out of order once every chunk below it is folded too (R248, R249, R258; DEDUCED, log 155). -/
def Coll.grantFor (x : Coll) (d : Peer) : Nat :=
  if x.req.op = 1 then x.req.depth + prefixOf x.units x.req.shardChunks 0 else d.granted + 1

/-- The credit that a landed or folded chunk gives back to a peer (R249). -/
def regrant (s : State) (i m : Nat) : State :=
  match s.coll i with
  | none => s
  | some x =>
    match x.peer m with
    | none => s
    | some d =>
      let d' := { d with granted := x.grantFor d }
      if d'.granted = d.granted then s else sendCredit (s.setColl i (some (x.setPeer d'))) x d'

/-- A destination of DISPATCH or RETURN told its count (R245, R247). -/
def tellCount (s : State) (x : Coll) (d : Peer) : State := sendColl s x d kChunkCount x.me 0 d.count []

/-- A unit is complete. -/
def Coll.complete (x : Coll) (u : Nat) : Coll := if x.units.contains u then x else { x with units := x.units ++ [u] }

/-! ## What is to be received -/

/-- The rows that a peer will send, once it has told its count (R245, R246). -/
def Coll.rowsFrom (x : Coll) (d : Peer) : Option Nat := d.told.map fun n => min n x.req.cap
/-- The chunks that come from a peer, where that is known. -/
def Coll.chunksFrom (x : Coll) (d : Peer) : Option Nat :=
  if x.req.keyed then (x.rowsFrom d).map fun n => (n + x.req.perChunk - 1) / x.req.perChunk else some x.req.shardChunks
/-- The length of a chunk from a peer, where that is known (R248). -/
def Coll.chunkLen (x : Coll) (d : Peer) (j : Nat) : Option Nat :=
  if x.req.keyed then (x.rowsFrom d).map fun n => min x.req.perChunk (n - j * x.req.perChunk) * x.req.len
  else some (min x.req.size (x.req.len - j * x.req.size))

/-- The staging slot of a peer's chunk (R248). -/
def Coll.slot (x : Coll) (m j : Nat) : Nat :=
  let q := if m < x.me then m else m - 1
  (q * x.req.depth + j % x.req.depth) * x.req.size

/-- The bytes of a received range of a chunk put where they belong: staging, the destination, or the rows of a RETURN that are
expected (R242, R243, R245, R246, R248). -/
def land (s : State) (x : Coll) (m j off : Nat) (bs : Bytes) : State × Bool :=
  let r := x.req
  match r.op with
  | 1 => writeLayout s x.part x.stg (x.slot m j + off) bs
  | 2 => writeLayout s x.part x.dst (m * r.len + j * r.size + off) bs
  | 3 => writeLayout s x.part x.dst (m * r.cap * r.len + j * r.perChunk * r.len + off) bs
  | _ =>
    let (s, ok, keys) := keysOf s x.part x.key r.keys
    let es := entriesFor keys m
    if !ok then (s, false)
    else (List.range ((off + bs.length + r.len - 1) / r.len - off / r.len)).foldl (fun (s, ok) k =>
      let row := off / r.len + k
      let lo := max off (row * r.len)
      let hi := min (off + bs.length) ((row + 1) * r.len)
      match es[j * r.perChunk + row]? with
      | some (e, _) =>
        let (s, b) := writeLayout s x.part x.dst (e * r.len + lo % r.len) (sub bs (lo - off) (hi - lo))
        (s, ok && b)
      | none => (s, ok)) (s, true)

/-- What follows once a chunk from a peer is whole: it is acknowledged, and it becomes a contribution, or returns its credit and
may complete a unit (R242, R243, R248, R249). -/
def wholeChunk (s : State) (i m j : Nat) : State :=
  match s.coll i with
  | none => s
  | some x =>
    match x.peer m with
    | none => s
    | some d =>
      let s := sendColl s x d kChunkAck m j 0 []
      let d := { d with whole := d.whole ++ [j], got := put [] d.got j [] }
      let x := x.setPeer d
      match x.req.op with
      | 1 =>
        s.setColl i (some (if x.peers.all fun e => e.whole.contains j then { x with ready := x.ready ++ [j] } else x))
      | 2 => settleColl (regrant (s.setColl i (some (x.complete (j * x.size + m)))) i m) i
      | _ =>
        let all := match x.chunksFrom d with
          | some n => (List.range n).all d.whole.contains
          | none => false
        settleColl (regrant (s.setColl i (some (if all then x.complete m else x))) i m) i

/-- Chunks of a peer whose bytes have all arrived become whole. -/
def settlePeer (s : State) (i m : Nat) : State :=
  match s.coll i with
  | none => s
  | some x =>
    match x.peer m with
    | none => s
    | some d =>
      d.got.foldl (fun s (j, rs) =>
        if x.chunkLen d j = some ((rs.map (·.2)).sum) then wholeChunk s i m j else s) s

/-! ## What is to be sent -/

/-- The chunks of `rows` rows. -/
def CollReq.chunksOfRows (r : CollReq) (rows : Nat) : Nat := (rows + r.perChunk - 1) / r.perChunk

/-- The bytes of chunk `j` for a peer (R242, R243, R245, R246). -/
def chunkData (s : State) (x : Coll) (d : Peer) (j : Nat) : State × Bool × Bytes :=
  let r := x.req
  let shard := min r.size (r.len - j * r.size)
  let rows := min r.perChunk (d.rows - j * r.perChunk)
  match r.op with
  | 1 => readLayout s x.part x.src (d.member * r.len + j * r.size) shard
  | 2 => readLayout s x.part x.src (j * r.size) shard
  | 3 =>
    let (s, ok, keys) := keysOf s x.part x.key r.keys
    (((entriesFor keys d.member).drop (j * r.perChunk)).take rows).foldl (fun (s, ok, acc) (_, row) =>
      let (s, b, bs) := readLayout s x.part x.src (row * r.len) r.len
      (s, ok && b, acc ++ bs)) (s, ok, [])
  | _ => readLayout s x.part x.src ((d.member * r.cap + j * r.perChunk) * r.len) (rows * r.len)

/-- What a chunk's bytes are read from: layouts, with the first byte and the length in each; of DISPATCH the whole source. -/
def Coll.chunkReads (x : Coll) (d : Peer) (j : Nat) : List (Layout × Nat × Nat) :=
  let r := x.req
  match r.op with
  | 1 => [(x.src, d.member * r.len + j * r.size, min r.size (r.len - j * r.size))]
  | 2 => [(x.src, j * r.size, min r.size (r.len - j * r.size))]
  | 3 => [(x.key, 0, 4 * r.keys), (x.src, 0, x.src.size)]
  | _ => [(x.src, (d.member * r.cap + j * r.perChunk) * r.len, min r.perChunk (d.rows - j * r.perChunk) * r.len)]

/-- A chunk sent to a peer in packets of up to 4,096 bytes (R264); an uncorrectable source aborts the collective (R256). -/
def sendChunk (s : State) (i : Nat) (x : Coll) (d : Peer) (j : Nat) (prefer : Option Nat := none) : State :=
  match chunkData s x d j with
  | (s, false, _) => abortColl s i x stData
  | (s, true, bs) =>
    (List.range ((bs.length + 4095) / 4096)).foldl (fun s k =>
      sendColl s x d kChunk x.me j (4096 * k) (sub bs (4096 * k) 4096) prefer) (s.setColl i (some (x.setPeer d)))

/-! ## Admission (R238 to R241) -/

/-- A request refused at admission: it takes its sequence number, and aborts (R238, R239). -/
def refuse (s : State) (p core : Nat) (r : CollReq) (inGroup : Bool) (st : Byte) : State :=
  let y := s.part p
  let seq := look 0 y.seqNext r.group
  let s := if inGroup then
      s.setPart p { y with seqNext := put 0 y.seqNext r.group ((seq + 1) % 65536), seqLast := put none y.seqLast r.group (some seq) }
    else s
  reportAbort (writeAbort s p core r st) p r.ticket st

/-- The layouts of a request with the sizes that R237 asks of them. -/
def needs (x : Coll) : List (Layout × Nat) :=
  let r := x.req
  let g := x.size
  match r.op with
  | 1 => [(x.src, g * r.len), (x.dst, r.len)] ++ (if g = 1 then [] else [(x.stg, (g - 1) * r.depth * r.size)])
  | 2 => [(x.src, r.len), (x.dst, g * r.len)]
  | 3 => [(x.src, r.len), (x.dst, g * r.cap * r.len), (x.key, 4 * r.keys)]
  | _ => [(x.src, g * r.cap * r.len), (x.dst, r.keys * r.len), (x.key, 4 * r.keys)]

/-- What the module contributes to itself in DISPATCH and RETURN, and the rows that each peer is to be sent and told (R245 to
R247): a status where a key entry breaks R245 or a read fails. `rows` is by member. -/
structure Keyed where
  counts : List Nat
  own    : List (Nat × Nat)
  bad    : Bool

/-- The keyed work of an admitted collective: `own` are its own rows, from source row to destination row. -/
def keyedWork (s : State) (x : Coll) : State × (Byte ⊕ Keyed) :=
  let r := x.req
  match keysOf s x.part x.key r.keys with
  | (s, false, _) => (s, .inl stData)
  | (s, true, keys) =>
    if r.op = 3 then
      let t := x.src.size / r.len
      if keys.any fun (m, row) => decide (x.size ≤ m) || decide (t ≤ row) then (s, .inl csInvalid)
      else
        let counts := (List.range x.size).map fun m => (entriesFor keys m).length
        let mine := ((entriesFor keys x.me).take r.cap).zipIdx.map fun ((_, row), rank) => (row, x.me * r.cap + rank)
        (s, .inr ⟨counts, mine, counts.any fun n => decide (r.cap < n)⟩)
    else
      let counts := (List.range x.size).map fun m => readNum (s.core x.core).scratch (r.cntOff + 4 * m) 4
      let es := entriesFor keys x.me
      let told := counts.getD x.me 0
      let mine := (List.range (min told r.cap)).filterMap fun k => (es[k]?).map fun (e, _) => (x.me * r.cap + k, e)
      (s, .inr ⟨counts, mine, (counts.any fun n => decide (r.cap < n)) || told != es.length⟩)

/-- Rows copied from the source to the destination on the die. -/
def copyRows (s : State) (x : Coll) (rows : List (Nat × Nat)) : State × Bool :=
  rows.foldl (fun (s, ok) (a, b) =>
    let (s, k, bs) := readLayout s x.part x.src (a * x.req.len) x.req.len
    let (s, j) := writeLayout s x.part x.dst (b * x.req.len) bs
    (s, ok && k && j)) (s, true)

/-- An admitted collective begins: it copies its own contribution, tells its counts, and grants each peer credit for d chunks
(R245 to R249). -/
def begin (s : State) (i : Nat) (x : Coll) : State :=
  let r := x.req
  let grant (s : State) (x : Coll) : State :=
    let s := x.peers.foldl (fun s d => sendCredit s x d) (s.setColl i (some x))
    settleColl s i
  match r.op with
  | 1 =>
    let x := { x with
      peers := x.peers.map fun d => { d with chunks := r.shardChunks }
      ready := if x.size = 1 then List.range r.shardChunks else [] }
    grant s x
  | 2 =>
    match readLayout s x.part x.src 0 r.len with
    | (s, ok, bs) =>
      match writeLayout s x.part x.dst (x.me * r.len) bs with
      | (s, ok') =>
        if !(ok && ok') then abortColl s i x stData
        else grant s { x with
          peers := x.peers.map fun d => { d with chunks := r.shardChunks }
          units := (List.range r.shardChunks).map fun j => j * x.size + x.me }
  | _ =>
    match keyedWork s x with
    | (s, .inl st) => abortColl s i x st
    | (s, .inr w) =>
      match copyRows s x w.own with
      | (s, false) => abortColl s i x stData
      | (s, true) =>
        let s := if r.op = 3 then writeWord s x.core (r.cntOff + 4 * x.me) (w.counts.getD x.me 0) else s
        let x := { x with
          badCount := w.bad, units := [x.me]
          peers := x.peers.map fun d =>
            let n := min (w.counts.getD d.member 0) r.cap
            { d with rows := n, chunks := r.chunksOfRows n, count := w.counts.getD d.member 0 } }
        grant (x.peers.foldl (fun s d => tellCount s x d) s) x

/-- Whether the accesses by which a posted request begins wait for a channel that is being retrained: its own contribution and its keys
(R245 to R247, R366). -/
def postWaits (s : State) (p : Nat) (q : Post) : Bool :=
  let r := reqOf q.bytes
  let l := match (s.part p).step with
    | some st => st.groups
    | none => []
  let whole (i : Nat) : Layout × Nat × Nat := (layoutAt l i, 0, (layoutAt l i).size)
  decide (r.op ≠ 1) && (layoutWaits s p (whole r.src) || layoutWaits s p (whole r.dst) || (r.keyed && layoutWaits s p (whole r.key)))

/-- The request whose ticket is next is admitted into a free context, checked, and begun (R238, R240). Counts that would run past the scratchpad
are taken as an address out of range (DESIGN CHOICE, log 153), and the ticket after 65,535 is 0 (DESIGN CHOICE, log 154). -/
def admitPost (s : State) (p : Nat) (q : Post) (i : Nat) : State :=
  let r := reqOf q.bytes
  let y := s.part p
  let l := match y.step with
    | some st => st.groups
    | none => []
  let s := s.setPart p { y with ticket := (y.ticket + 1) % 65536, posts := y.posts.erase q }
  let g := groupAt l r.group
  let inGroup := decide (r.group < field l 0 2)
  if !validReq q.bytes (field l 0 2) (field l 2 2) (s.rowsOf p).length g.size then refuse s p q.core r inGroup csInvalid
  else match membersOf s p g with
  | none => refuse s p q.core r inGroup csInvalid
  | some ms =>
    match ownMember s ms with
    | none => refuse s p q.core r inGroup csInvalid
    | some me =>
      let n := ms.length
      let y := s.part p
      let seq := look 0 y.seqNext r.group
      let peers := (List.range (n - 1)).map fun k =>
        let m := (me + 1 + k) % n
        let (rack, mod) := ms.getD m (0, 0)
        ({ member := m, rack, module := mod, granted := r.depth } : Peer)
      let x : Coll :=
        { part := p, core := q.core, req := r, src := layoutAt l r.src, dst := layoutAt l r.dst, stg := layoutAt l r.stg
          key := layoutAt l r.key, seq, me, size := n, peers, ready := [], units := [], flagged := 0, badCount := false }
      if (needs x).any (fun (a, n) => decide (a.size < n)) then refuse s p q.core r inGroup csInvalid
      else if (needs x).any (fun (a, _) => !layoutOk s p a) ∨ (r.keyed ∧ scratchSize < r.cntOff + 4 * n) then
        refuse s p q.core r inGroup stRange
      else
        let s := s.setPart p { y with seqNext := put 0 y.seqNext r.group ((seq + 1) % 65536) }
        begin ((s.setColl i (some x)).setN Obj.trussActive (p + 1) (s.getN Obj.trussActive (p + 1) + 1)) i x

/-- The groups of the image that a partition's step runs (R235). -/
def groupCount (s : State) (p : Nat) : Nat :=
  match (s.part p).step with
  | some r => field r.groups 0 2
  | none => 0

/-- How far a ticket lies above the next one to be admitted, in the 16 bits of a request's field (R235, R239; DESIGN CHOICE, log 154). -/
def ticketAhead (next t : Nat) : Nat := (t + 65536 - next) % 65536

/-- The requests that the bays hold go to the posting queue; one whose ticket lies outside the queue's window is aborted,
with a sequence number of its own (R236, R238, R239). -/
def takePosts (s : State) (p : Nat) : State :=
  let s := (s.baysOf p).foldl (fun s b =>
    (s.bay b).posts.foldl (fun s (core, bytes) =>
      let y := s.part p
      let r := reqOf bytes
      let out := decide (63 < ticketAhead y.ticket r.ticket)
      if !out ∧ 64 ≤ y.posts.length then s
      else
        let s := s.setBay b { s.bay b with posts := (s.bay b).posts.erase (core, bytes) }
        if out then refuse s p core r (decide (r.group < groupCount s p)) csInvalid else s.setPart p { s.part p with posts := y.posts ++ [⟨core, bytes⟩] }) s) s
  let old := (s.part p).posts.filter fun q => decide (63 < ticketAhead (s.part p).ticket (reqOf q.bytes).ticket)
  old.foldl (fun s q =>
    refuse (s.setPart p { s.part p with posts := (s.part p).posts.erase q }) p q.core (reqOf q.bytes)
      (decide ((reqOf q.bytes).group < groupCount s p)) csInvalid) s

/-- Whether the cores of a partition's step have all halted or stopped. -/
def State.quiet (s : State) (p : Nat) : Bool :=
  (s.workersOf p).all fun c => (s.core c).halted || (s.core c).run == .off

/-- ADMISSION: the engine takes the posted requests of a partition and admits the next ticket into a free context of its own;
where that ticket was never posted and every core has halted, the requests behind it abort (R236 to R241). -/
def execAdmission (p : Fin 8) (s : State) : Host.Outcome State Fault Refusal :=
  let s' := takePosts s p
  let y := s'.part p
  .next (match y.step with
  | none => s
  | some r =>
    match y.posts.find? fun q => (reqOf q.bytes).ticket == y.ticket with
    | some q =>
      let mine := (List.range 32).filter fun i =>
        match s'.coll i with
        | some x => x.part == p.val
        | none => false
      match (List.range 32).find? fun i => (s'.coll i).isNone with
      | some i => if mine.length < s'.getN Obj.trussCtx (p + 1) ∧ !postWaits s' p q then admitPost s' p q i else s'
      | none => s'
    | none =>
      if r.phase ≠ .loading ∧ s'.quiet p then
        y.posts.foldl (fun s q => refuse (s.setPart p { s.part p with posts := (s.part p).posts.erase q }) p q.core (reqOf q.bytes) false
          csInvalid) s'
      else s')

/-! ## Commands of the engine -/

/-- CREDIT_REGRANT: until a peer's first chunk has arrived, all of its packets, its credit is sent again (R249; DEDUCED, log 156). -/
def execCreditRegrant (i : Fin 32) (peer : Nat) (s : State) : Host.Outcome State Fault Refusal :=
  .next (match s.coll i with
  | none => s
  | some x =>
    match x.peer peer with
    | some d => if d.whole.isEmpty then sendCredit s x d else s
    | none => s)

/-- Whether a peer has granted credit for its next chunk (R249). -/
def Peer.sendable (d : Peer) : Bool := decide (d.next < d.chunks) && decide (d.next < d.credit)

/-- The place of the peer to which a collective sends next: the first from its turn on that has granted credit, in the order m + 1, m + 2 and so on
(R249; DESIGN CHOICE, log 125). -/
def Coll.nextDest (x : Coll) : Option Nat :=
  ((List.range x.peers.length).map fun k => (x.turn + k) % x.peers.length).find? fun k => (x.peers[k]?.map Peer.sendable).getD false

/-- CHUNK_SEND: the next chunk goes to the destination whose turn it is, one that has granted credit for it; it waits while a channel that it is
read from is being retrained (R249, R250, R366). -/
def execChunkSend (i : Fin 32) (dest : Nat) (s : State) : Host.Outcome State Fault Refusal :=
  .next (match s.coll i with
  | none => s
  | some x =>
    match x.nextDest with
    | none => s
    | some k =>
      match x.peers[k]? with
      | none => s
      | some d =>
        if d.member ≠ dest ∨ (x.chunkReads d d.next).any (layoutWaits s x.part) then s
        else sendChunk s i { x with turn := (k + 1) % x.peers.length } { d with next := d.next + 1 } d.next)

/-- The bytes of one element of a format (R235, R242). -/
def elemBytes (fmt : Nat) : Nat :=
  match fmt with
  | 2 | 3 => 2
  | 5 => 16
  | _ => 4

/-- The sums of two runs of elements (R80, R242). -/
def addBytes (fmt : Nat) (a b : Bytes) : Bytes :=
  let n := elemBytes fmt
  (List.range (a.length / n)).flatMap fun e => leBytes n (trussSum fmt (field a (n * e) n) (field b (n * e) n))

/-- The contributions of every member to result chunk `j`, in ascending member order (R242). -/
def contributions (s : State) (x : Coll) (j : Nat) : State × Bool × List Bytes :=
  let n := min x.req.size (x.req.len - j * x.req.size)
  (List.range x.size).foldl (fun (s, ok, acc) m =>
    let (s, k, bs) :=
      if m = x.me then readLayout s x.part x.src (x.me * x.req.len + j * x.req.size) n else readLayout s x.part x.stg (x.slot m j) n
    (s, ok && k, acc ++ [bs])) (s, true, [])

/-- What the fold of result chunk `j` reads and writes: layouts, with the first byte and the length in each (R242). -/
def Coll.foldRanges (x : Coll) (j : Nat) : List (Layout × Nat × Nat) :=
  let n := min x.req.size (x.req.len - j * x.req.size)
  [(x.src, x.me * x.req.len + j * x.req.size, n), (x.dst, j * x.req.size, n)] ++ x.peers.map fun d => (x.stg, x.slot d.member j, n)

/-- FOLD: the owner folds the chunk whose contributions were complete first, in ascending member order, returns the credit of its
staging and advances the flag; it waits while a channel that it needs is being retrained (R242, R249, R251, R366). -/
def execFold (i : Fin 32) (s : State) : Host.Outcome State Fault Refusal :=
  .next (match s.coll i with
  | none => s
  | some x =>
    match x.ready with
    | [] => s
    | j :: rest =>
      if (x.foldRanges j).any (layoutWaits s x.part) then s
      else match contributions s x j with
      | (s, false, _) => abortColl s i x stData
      | (s, true, cs) =>
        let sum := match cs with
          | [] => []
          | c :: cs => cs.foldl (addBytes x.req.fmt) c
        match writeLayout s x.part x.dst (j * x.req.size) sum with
        | (s, false) => abortColl s i x stData
        | (s, true) =>
          let s := s.setColl i (some ({ x with ready := rest }.complete j))
          settleColl (x.peers.foldl (fun s d => regrant s i d.member) s) i)

/-- Whether a chunk's last byte has left: no packet of it waits on a link. -/
def chunkLeft (s : State) (x : Coll) (d : Peer) (j : Nat) : Bool :=
  (List.range 6).all fun l => (s.link l).out.all fun (_, ps) => ps.all fun k =>
    !(k.h.kind == kChunk && k.part == x.part && k.h.group.toNat == x.req.group && k.h.seq.toNat == x.seq &&
      k.h.dstMod.toNat == d.module && k.h.dstRack.toNat == d.rack && k.h.chunk.toNat == j)

/-- The link of its axis on which a chunk is re-sent: the other than the one by which it last left (R253). -/
def Peer.resendBit (d : Peer) (chunk : Nat) : Option Nat := (look none d.used chunk).map fun l => 1 - l % 2

/-- CHUNK_TIMEOUT: Tc passes without a chunk's acknowledgement: it is re-sent once, on the other link of its axis, and the
collective aborts the second time (R253). -/
def execChunkTimeout (i : Fin 32) (dest chunk : Nat) (s : State) : Host.Outcome State Fault Refusal :=
  .next (match s.coll i with
  | none => s
  | some x =>
    match x.peer dest with
    | none => s
    | some d =>
      if d.next ≤ chunk ∨ d.acked.contains chunk ∨ !chunkLeft s x d chunk then s
      else if d.resent.contains chunk then abortColl s i x stTimeout
      else
        let d := { d with resent := d.resent ++ [chunk] }
        let h : Header := { blankHeader with dstRack := BitVec.ofNat 8 d.rack, dstMod := BitVec.ofNat 8 d.module }
        let up : Bool := match route s h with
          | some (a, _, _) => s.linkUp (2 * a) || s.linkUp (2 * a + 1)
          | none => false
        if up ∧ (x.chunkReads d chunk).any (layoutWaits s x.part) then s
        else if up then (sendChunk s i x d chunk (d.resendBit chunk)).count Obj.trussResent (x.part + 1) 64 else s.setColl i (some (x.setPeer d)))

/-- RECEIVE_TIMEOUT: 3 × Tc pass without a chunk from a peer whose first chunk has arrived and that holds credit for another (R254). -/
def execReceiveTimeout (i : Fin 32) (peer : Nat) (s : State) : Host.Outcome State Fault Refusal :=
  .next (match s.coll i with
  | none => s
  | some x =>
    match x.peer peer with
    | none => s
    | some d =>
      let last := match x.chunksFrom d with
        | some n => min n d.granted
        | none => d.granted
      let due := (List.range last).any fun j => !d.whole.contains j
      if d.whole.isEmpty ∨ !due then s else abortColl s i x stTimeout)

/-! ## Packets of the engine (R257) -/

/-- Whether a packet's sequence is that of the most recently finished collective of its group. -/
def finished (s : State) (p : Nat) (h : Header) : Bool := look none (s.part p).seqLast h.group.toNat == some h.seq.toNat

/-- A collective packet that matches no context: counted as stale, unless it belongs to the most recently finished collective. -/
def unmatched (s : State) (p : Nat) (h : Header) : State := if finished s p h then s else s.count Obj.trussStale 0 64

/-- A collective packet handled where its partition takes it (R257, R420). -/
def collPacket (h : Header) (f : Nat → Coll → State → State) (p : Nat) (s : State) : State :=
  if s.fenced p then s
  else match matching s p h with
    | some (i, x) => f i x s
    | none => unmatched s p h

/-- A range of a chunk that was whole already: it is discarded, and the chunk is acknowledged again once all of it has come again (R254). -/
def takeAgain (s : State) (i : Nat) (x : Coll) (d : Peer) (j off n : Nat) : State :=
  let old := look [] d.dup j
  let rs := if old.contains (off, n) then [(off, n)] else old ++ [(off, n)]
  let all := x.chunkLen d j == some (rs.map (·.2)).sum
  let s := s.setColl i (some (x.setPeer { d with dup := put [] d.dup j (if all then [] else rs) }))
  if all then sendColl s x d kChunkAck d.member j 0 [] else s

/-- What a range of a chunk from a peer writes and reads as it lands: layouts, with the first byte and the length in each; of RETURN its keys and the
whole destination (R242, R243, R245, R246, R248). -/
def Coll.landRanges (x : Coll) (m j off n : Nat) : List (Layout × Nat × Nat) :=
  let r := x.req
  match r.op with
  | 1 => [(x.stg, x.slot m j + off, n)]
  | 2 => [(x.dst, m * r.len + j * r.size + off, n)]
  | 3 => [(x.dst, m * r.cap * r.len + j * r.perChunk * r.len + off, n)]
  | _ => [(x.key, 0, 4 * r.keys), (x.dst, 0, x.dst.size)]

/-- Whether a packet of a collective that its partition takes waits for a channel that is being retrained: a range of a chunk that is to land, or a count that is held
against the keys of RETURN (R245, R366). -/
def packetWaits (s : State) (p : Nat) (h : Header) : Bool :=
  s.raising.retrain.isSome && !s.fenced p && match matching s p h with
  | none => false
  | some (_, x) =>
    if h.kind = kChunk then
      (x.landRanges h.member.toNat h.chunk.toNat h.offset.toNat h.len.toNat).any (layoutWaits s p)
    else x.req.op == 4 && layoutWaits s p (x.key, 0, 4 * x.req.keys)

/-- A range of a chunk received from a peer. -/
def takeChunk (h : Header) (data : Bytes) (i : Nat) (x : Coll) (s : State) : State :=
  let j := h.chunk.toNat
  let off := h.offset.toNat
  let n := h.len.toNat
  match x.peer h.member.toNat with
  | none => s
  | some d =>
    if d.whole.contains j then takeAgain s i x d j off n
    else if d.granted ≤ j ∨ x.req.size < off + n ∨ (look [] d.got j).contains (off, n) then s
    else match land s x d.member j off (padTo n data) with
      | (s, false) => abortColl s i x stData
      | (s, true) =>
        let d := { d with got := put [] d.got j (look [] d.got j ++ [(off, n)]) }
        settlePeer (s.setColl i (some (x.setPeer d))) i d.member

/-- A CHUNK handled where its partition takes it: one of the most recently finished collective is acknowledged and discarded (R257). -/
def chunkHere (h : Header) (data : Bytes) (p : Nat) (s : State) : State :=
  if s.fenced p then s
  else match matching s p h with
    | some (i, x) => takeChunk h data i x s
    | none =>
      if finished s p h then
        sendOwn s p 64 { collHeader s p with
          kind := kChunkAck, dstRack := h.srcRack, dstMod := h.srcMod, group := h.group, member := h.member, seq := h.seq
          chunk := h.chunk } []
      else unmatched s p h

/-- CHUNK: a CHUNK arrives at link `l`: it is staged or landed, and acknowledged once whole; one of the most recently finished
collective is acknowledged and discarded. One that is to land in a channel that is being retrained waits (R257, R366). -/
def execChunk (l : Fin 6) (h : Header) (data : Bytes) (s : State) : Host.Outcome State Fault Refusal :=
  .next (arrive l kChunk h data s fun p s =>
    if packetWaits s p h then holdBack s (.packet p h data) else chunkHere h data p s)

/-- CHUNK_ACK: an acknowledgement arrives (R252, R257). -/
def execChunkAck (l : Fin 6) (h : Header) (s : State) : Host.Outcome State Fault Refusal :=
  .next (arrive l kChunkAck h [] s (collPacket h fun i x s =>
    match x.peers.find? fun d => d.rack == h.srcRack.toNat && d.module == h.srcMod.toNat with
    | none => s
    | some d =>
      let j := h.chunk.toNat
      if d.acked.contains j ∨ d.next ≤ j then s
      else settleColl (s.setColl i (some (x.setPeer { d with acked := d.acked ++ [j] }))) i))

/-- CHUNK_CREDIT: credit arrives (R249, R257). A grant tells that the peer has admitted the collective, and one for which no chunk has been
acknowledged brings it its count of DISPATCH or RETURN again, which it discarded where it had not admitted it yet (R245, R257; DEDUCED, log 157). -/
def execChunkCredit (l : Fin 6) (h : Header) (s : State) : Host.Outcome State Fault Refusal :=
  .next (arrive l kChunkCredit h [] s (collPacket h fun i x s =>
    match x.peer h.member.toNat with
    | none => s
    | some d =>
      let s := s.setColl i (some (x.setPeer { d with credit := max d.credit h.chunk.toNat }))
      if x.req.keyed ∧ d.acked.isEmpty then tellCount s x d else s))

/-- A count handled where its partition takes it: DISPATCH writes it at the count offset; a count beyond the capacity, or other than the one that
RETURN expects, makes the collective end with COLL_COUNT. A peer's count tells that the peer has admitted the collective, as its credit does: where it
comes first, the peer is told its own count again, before the collective can complete (R245 to R248, R257; DEDUCED, log 157). -/
def countHere (h : Header) : Nat → State → State :=
  collPacket h fun i x s =>
    let n := h.offset.toNat
    match x.peer h.member.toNat with
    | none => s
    | some d =>
      if d.told.isSome ∨ !x.req.keyed then s
      else
        let s := if x.req.op = 3 then writeWord s x.core (x.req.cntOff + 4 * d.member) n else s
        let (s, ok, keys) := if x.req.op = 3 then (s, true, []) else keysOf s x.part x.key x.req.keys
        let wrong := x.req.op == 4 && (entriesFor keys d.member).length != n
        if !ok then abortColl s i x stData
        else
          let s := if d.credit = 0 then tellCount s x d else s
          let d := { d with told := some n }
          let x := { x with badCount := x.badCount || wrong || decide (x.req.cap < n) }.setPeer d
          let x := if n = 0 then x.complete d.member else x
          settleColl (settlePeer (s.setColl i (some x)) i d.member) i

/-- CHUNK_COUNT: a count arrives at link `l`; one of RETURN waits while a channel that holds its keys is being retrained (R245 to R248, R366). -/
def execChunkCount (l : Fin 6) (h : Header) (s : State) : Host.Outcome State Fault Refusal :=
  .next (arrive l kChunkCount h [] s fun p s =>
    if packetWaits s p h then holdBack s (.packet p h []) else countHere h p s)

/-- A packet of a collective that waited for a retrain is handled (R366). -/
def replayPacket (s : State) (p : Nat) (h : Header) (data : Bytes) : State :=
  if h.kind = kChunk then chunkHere h data p s else countHere h p s

end Sys2Proof.Machine
end

