-- ==== Sys2Proof/Machine/Links.lean ====
section
/-! DEFINITION. The Tenon links themselves: training, codewords, control flits, leaving and returning to UP (R260 to R263, R267,
R272, R273, R286, R290 to R293, R362, R363, R367), and the plumb check (R287 to R290). -/

namespace Sys2Proof.Machine

/-! ## States (R291) -/

/-- DOWN. -/
abbrev lsDown : Nat := 0
/-- TRAIN. -/
abbrev lsTrain : Nat := 1
/-- IDENT. -/
abbrev lsIdent : Nat := 2
/-- UP. -/
abbrev lsUp : Nat := 3
/-- DEPARTED. -/
abbrev lsDeparted : Nat := 4
/-- DISABLED. -/
abbrev lsDisabled : Nat := 5

/-- LINK_STATE of a link. -/
def State.linkState (s : State) (l : Nat) : Nat := s.getN Obj.linkState (l + 1)

/-- A link leaves UP for another state: its queued packets move to the other link of its axis, in order, or are discarded and
counted where that one is not UP (R292). -/
def leaveUp (s : State) (l st : Nat) : State :=
  let s := s.setN Obj.linkState (l + 1) st
  let y := s.link l
  let o := if l % 2 = 0 then l + 1 else l - 1
  let s := s.setLink l { y with out := [] }
  if s.linkUp o then
    y.out.foldl (fun s (v, ps) =>
      let z := s.link o
      s.setLink o { z with out := put [] z.out v (look [] z.out v ++ ps) }) s
  else
    (y.out.flatMap (·.2)).foldl freeCame (s.count Obj.linkFwdDiscard 0 64 (y.out.map fun e => e.2.length).sum)

/-- An UP link goes to `st`, from which the module retrains it by itself unless it is DISABLED (R291, R367). -/
def fall (s : State) (l st : Nat) : State :=
  if s.linkState l = lsUp then
    let s := leaveUp s l st
    s.setLink l { s.link l with auto := st != lsDisabled, attempt := 0 }
  else s

/-! ## Identity (R286) -/

/-- The coordinate that the straps give (R287, R484). -/
def State.strapIndex (s : State) : Nat := s.pins.straps.coord.toNat

/-- The IDENT of a link's far end, where it has sent one (R287). -/
def State.farEnd (s : State) (l : Nat) : Option Ident :=
  if s.linkState l = lsIdent ∨ s.linkState l = lsUp then (s.link l).far else none

/-- The roles of the far ends that have sent an IDENT. -/
def State.roles (s : State) : List Byte := (List.range 6).filterMap fun l => (s.farEnd l).map (·.role)

/-- Receive buffers, in flits, by VC (R268); VC 3 to 5 are not on a Z link. -/
def ownBuffers (l : Nat) : List Half := [256, 1024, 1024] ++ (if l / 2 = 2 then [0, 0, 0] else [256, 512, 512])

/-- The module's own IDENT on a link. Before a coordinate is held, a module in strap mode gives the straps' (R287; DEDUCED,
log 50). -/
def State.ident (s : State) (l : Nat) : Ident :=
  let (place, index) : Byte × Half := match s.ownIndex with
    | some i => (BitVec.ofNat 8 (bits (s.getN Obj.routeCoord 0) 24 8), BitVec.ofNat 16 i)
    | none => if s.roles.all (· == 1) then (1, BitVec.ofNat 16 s.strapIndex) else (0, 0xFFFF)
  { role := 1, rates := BitVec.ofNat 8 (s.getN Obj.linkRateAllow (l + 1)), rack := BitVec.ofNat 8 s.rack, num := BitVec.ofNat 8 l
    place, index, serial := s.fuses.serial, bufs := ownBuffers l, reserved := 0 }

/-- Whether two IDENTs are of one far end: its role, rack and serial number, the plane, tray and port of a switch, or the link and the index of a
module. The rates, the buffers and a module's coordinate source are no part of an identity (R286, R290; DEDUCED, log 166). -/
def sameEnd (a b : Ident) : Bool :=
  a.role == b.role && a.rack == b.rack && a.num == b.num && (a.role != 2 || a.place == b.place) && a.index == b.index &&
    a.serial == b.serial

/-- The 64 bytes of an IDENT control flit (R265, R267, R286). -/
def identBlob (i : Ident) : Bytes :=
  [0, 1, i.role, i.rates, i.rack, i.num, i.place, 0] ++ leBytes 2 i.index.toNat ++ zeroBytes 6 ++ leBytes 8 i.serial.toNat ++
    padTo 12 (i.bufs.flatMap fun b => leBytes 2 b.toNat) ++ zeroBytes 28

/-- Whether an IDENT is valid: a role, fields within R286's ranges, reserved fields zero. -/
def validIdent (i : Ident) : Bool :=
  i.reserved == 0 && decide (i.rates.toNat ≤ 3) && i.bufs.length == 6 &&
    ((i.role == 1 && decide (i.num.toNat ≤ 5) && decide (i.place.toNat ≤ 2) && (decide (i.index.toNat ≤ 63) || i.index == 0xFFFF)) ||
      (i.role == 2 && decide (1 ≤ i.num.toNat) && decide (i.num.toNat ≤ 3) && decide (i.place.toNat ≤ 5)))

/-! ## Training (R261, R362) -/

/-- The rate at which training begins, or after T2 has failed: T2 and then T1, as LINK_RATE_ALLOW permits; 0 for none. -/
def State.rateFrom (s : State) (l top : Nat) : Nat :=
  let a := s.getN Obj.linkRateAllow (l + 1)
  if top = 2 ∧ bit a 1 then 2 else if bit a 0 then 1 else 0

/-- A link begins to train; where no rate is permitted it stays DOWN (R261). -/
def startTraining (s : State) (l : Nat) : State :=
  let began := s.linkState l
  let s := if began = lsUp then leaveUp s l lsTrain else s
  let r := s.rateFrom l 2
  let s := (s.setN Obj.linkState (l + 1) (if r = 0 then lsDown else lsTrain)).setN Obj.linkRate (l + 1) 0
  s.setLink l { s.link l with training := r, began, far := none, missed := r == 0 }

/-- Whether stage 5 keeps a link's training waiting: LINK_TRAIN has it, which waits (R442). -/
def State.trainingWaits (s : State) (l : Nat) : Bool :=
  s.dark && !(s.link l).retrain && (match s.raising.running with
    | some (c, _) => c == 0x17
    | none => false)

/-- The receive buffers of a link are empty: forwarded packets that lay in them count there no longer (R272). -/
def emptyBuffers (s : State) (l : Nat) : State :=
  let clear (x : Packet) : Packet := if (x.came.map (·.1)) = some l then { x with came := none } else x
  upTo 6 (fun k s => s.setLink k { s.link k with out := (s.link k).out.map fun e => (e.1, e.2.map clear) }) s

/-- A link enters IDENT: its receive buffers are empty, every count restarts at zero and it sends IDENT (R272, R286, R291). -/
def enterIdent (s : State) (l : Nat) : State :=
  let s := emptyBuffers (s.setN Obj.linkState (l + 1) lsIdent) l
  let s := s.setLink l { s.link l with sent := [], farFreed := [], arrived := [], freed := [], sinceCredit := [] }
  s.send (.ident l (s.ident l))

/-- LANES_LOCKED: a training link's lanes lock at the rate it tries; the link enters IDENT, its counts restart at zero and it
sends IDENT (R261, R272, R286, R362). In stage 5 LINK_TRAIN's links wait (R442). -/
def execLanesLocked (l : Fin 6) (t2 : Bool) (s : State) : Host.Outcome State Fault Refusal :=
  let y := s.link l
  let r := if t2 then 2 else 1
  .next (
    if s.linkState l ≠ lsTrain ∨ y.training ≠ r ∨ s.pins.departed ∨ s.trainingWaits l then s
    else
      let s := (s.setN Obj.linkRate (l + 1) r).setN Obj.raiseSoakBits (l + 1) 0
      let s := s.setLink l { s.link l with
        far := none, training := 0, cwNext := none, uncorr := [], soakErrs := 0, vcTurn := 0, frame := none, torn := false }
      enterIdent s l)

/-- LANE_LOCK_TIMEOUT: a link whose lanes have not locked in 100 ms trains at T1 where that is permitted, or stays DOWN (R261). In stage 5 LINK_TRAIN's links
wait (R442). -/
def execLaneLockTimeout (l : Fin 6) (s : State) : Host.Outcome State Fault Refusal :=
  let y := s.link l
  .next (
    if s.linkState l ≠ lsTrain ∨ s.trainingWaits l then s
    else
      let r := if y.training = 2 then s.rateFrom l 1 else 0
      (s.setN Obj.linkState (l + 1) (if r = 0 then lsDown else lsTrain)).setLink l { y with training := r, missed := r == 0 })

/-- LINK_RETRAIN_ATTEMPT: the back-off timer of a link that went DOWN or DEPARTED fires, and the module trains it (R367). -/
def execLinkRetrainAttempt (l : Fin 6) (s : State) : Host.Outcome State Fault Refusal :=
  let y := s.link l
  let st := s.linkState l
  .next (
    if !y.auto ∨ y.retrain ∨ (st ≠ lsDown ∧ st ≠ lsDeparted) ∨ s.pins.departed ∨ s.pins.inReset ∨ s.fw.busy then s
    else startTraining (s.setLink l { y with retrain := true, accept := false, attempt := y.attempt + 1 }) l)

/-! ## Codewords (R262, R263, R363) -/

/-- Whether a link's bits count toward a soak: it is in IDENT while LINK_SOAK or its own retrain runs (R363, R367). -/
def State.soaking (s : State) (l : Nat) : Bool :=
  let step : Bool := match s.raising.running with
    | some (c, _) => c == 0x18
    | none => false
  s.linkState l == lsIdent && (step || (s.link l).retrain)

/-- A link passes its soak: 10^13 bits with no uncorrectable codeword, and a bit error ratio of at most 2.4 × 10⁻⁴ (R363). -/
def State.soaked (s : State) (l : Nat) : Bool :=
  let n := s.getN Obj.raiseSoakBits (l + 1)
  decide (10 ^ 13 ≤ n) && decide ((s.link l).soakErrs * 100_000 ≤ 24 * n)

/-- A link's soak starts again from zero (R363). -/
def zeroSoak (s : State) (l : Nat) : State :=
  (s.setN Obj.raiseSoakBits (l + 1) 0).setLink l { s.link l with soakErrs := 0 }

/-- The 5,140 bits that a codeword's 514 data symbols carry: flits 0 to 9 from bit 0, byte by byte, then the head map and the codeword
count (R262). -/
def codewordBits (flits : List Bytes) (head count : BitVec 10) : BitVec 5140 :=
  BitVec.ofNat 5140 (leNat (flits.flatMap fun f => padTo 64 f) + 2 ^ 5120 * head.toNat + 2 ^ 5130 * count.toNat)

/-- A byte of a flit of a codeword (R262). -/
def flitByte (w : Codeword) (flit off : Nat) : Nat := (w.bits.extractLsb' (512 * flit + 8 * off) 8).toNat

/-- Whether the head map marks a flit: it begins a packet or is a control flit (R262). -/
def headMark (w : Codeword) (flit : Nat) : Bool := w.bits.getLsbD (5120 + flit)

/-- The codeword count (R262). -/
def cwCount (w : Codeword) : BitVec 10 := w.bits.extractLsb' 5130 10

/-- The lane on which a codeword's symbol travels; the receiver corrects the lanes' order, so nothing later tells them apart (R262). -/
def laneOf (symbol : Nat) : Nat := symbol % 8

/-- A packet that is discarded with a codeword is counted; where its header arrived, its flits count as arrived and freed (R263, R273). -/
def losePacket (l : Nat) (s : State) (x : Option Frame) : State :=
  let s := s.count Obj.linkPktDiscard (l + 1) 64
  match x with
  | some f => if f.vc < 6 then noteFreed (noteArrival s l f.vc f.flits) l f.vc f.flits else s
  | none => s

/-- Flits that lay in uncorrectable or missing codewords: the packet in progress is discarded, once, and what follows them belongs to it while it
lasts, or to no packet that the link knows (R262, R263). -/
def loseFlits (l : Nat) (s : State) (n : Nat) : State :=
  let y := s.link l
  if n = 0 then s
  else match y.frame with
  | none => s.setLink l { y with torn := true }
  | some f =>
    let s := if f.lost then s else losePacket l s (some f)
    let y := s.link l
    if f.left ≤ n then s.setLink l { y with frame := none, torn := decide (f.left < n) }
    else s.setLink l { y with frame := some { f with left := f.left - n, lost := true } }

/-- A flit of a codeword that FEC left right. One that the head map marks begins a packet, whose header gives its VC and its data flits, or is a
control flit; one that it does not mark belongs to the packet in progress, or is discarded with the packet whose header was lost (R262, R263, R265). -/
def takeFlit (l : Nat) (w : Codeword) (s : State) (i : Nat) : State :=
  if headMark w i then
    let s := match (s.link l).frame with
      | some f => if f.lost then s else losePacket l s (some f)
      | none => s
    let n := flitByte w i 2
    s.setLink l { s.link l with
      torn := false, frame := if flitByte w i 0 = 0 ∨ n = 0 then none else some ⟨flitByte w i 1, 1 + n, n, false⟩ }
  else
    let y := s.link l
    match y.frame with
    | some f => s.setLink l { y with frame := if f.left ≤ 1 then none else some { f with left := f.left - 1 } }
    | none => if y.torn then losePacket l (s.setLink l { y with torn := false }) none else s

/-- The flits of a codeword, after `lost` codewords that brought none (R262, R263). -/
def takeFlits (l : Nat) (w : Codeword) (s : State) (lost : Nat) : State :=
  let s := loseFlits l s (10 * lost)
  if w.corrected then (List.range 10).foldl (takeFlit l w) s else s

/-- The times of the uncorrectable codewords of the last 1 ms, with `bad` more now; of more than 33 the last (R291). -/
def uncorrNow (s : State) (old : List Dword) (bad : Nat) : List Dword :=
  let xs := (old.filter fun t => decide (s.uptime < t.toNat + 1_000_000)) ++ List.replicate (min bad 33) s.clock.up
  xs.drop (xs.length - 33)

/-- CODEWORD: a codeword reaches link `l`. One that FEC cannot correct is discarded with every packet that has a flit in it, and each
codeword missing from the count is taken as uncorrectable; more than 32 of them in any 1 ms take the link DOWN (R262, R263,
R291, R363). The packets and control flits that have arrived whole are commands of their own (log 138). -/
def execCodeword (l : Fin 6) (w : Codeword) (s : State) : Host.Outcome State Fault Refusal :=
  let y := s.link l
  .next (
    if !s.linkLive l then s
    else
      let gap := match y.cwNext with
        | some n => if w.corrected then (cwCount w - n).toNat else 0
        | none => 0
      let bad := gap + (if w.corrected then 0 else 1)
      let next := if w.corrected then some (cwCount w + 1) else y.cwNext.map (· + 1)
      let s := if w.corrected ∧ 0 < w.symbols then s.count Obj.linkCwCorr (l + 1) 64 else s
      let s := s.count Obj.linkCwUncorr (l + 1) 64 bad
      let late := uncorrNow s y.uncorr bad
      let s := s.setLink l { y with cwNext := next, uncorr := late }
      let s := takeFlits l w s bad
      let s := if !s.soaking l then s
        else if 0 < bad then zeroSoak s l
        else (s.count Obj.raiseSoakBits (l + 1) 64 5440).setLink l { s.link l with soakErrs := (s.link l).soakErrs + w.errors }
      if 32 < late.length then fall s l lsDown else s)

/-- The FP32 nearest to a / b. -/
def ratio32 (a b : Nat) : Word :=
  let q := a * 2 ^ 160 / b
  toFp32 (.fin (2 * q + (if a * 2 ^ 160 % b = 0 then 0 else 1) : Nat) (-161)) false

/-- A word of FP32 above 10⁻³ and at most 1, by a free value: what LINK_BER reads after an interval that is taken as saturated (R478). -/
def berAbove (r : Nat) : Nat := 0x3A83_126F + r % (0x3F80_0000 - 0x3A83_126F + 1)

/-- BER_WINDOW: 1 ms of a link ends with its pre-FEC errors and bits; a ratio above 10⁻³ takes an UP link DOWN. An overrun of the
count is taken as such a ratio and sets a soak back to zero; LINK_BER then reads some ratio above 10⁻³ (R263, R291, R478; free value, log 168). -/
def execBerWindow (l : Fin 6) (errors bits : Nat) (overrun : Bool) (s : State) : Host.Outcome State Fault Refusal :=
  .next (
    if !s.linkLive l then s
    else
      let s :=
        if overrun then
          let (r, s) := s.draw
          let s := if s.soaking l then zeroSoak s l else s
          (s.setN Obj.clkOverrun 0 (setBit (s.getN Obj.clkOverrun 0) l true)).setN Obj.linkBer (l + 1) (berAbove r)
        else if bits = 0 then s
        else s.setN Obj.linkBer (l + 1) (ratio32 errors bits).toNat
      if overrun ∨ bits < 1000 * errors then fall s l lsDown else s)

/-- LANE_LOCK_LOST: loss of lane lock or alignment takes an UP link DOWN (R291). -/
def execLaneLockLost (l : Fin 6) (s : State) : Host.Outcome State Fault Refusal := .next (fall s l lsDown)

/-- LINK_SILENCE: 10 µs without a control flit take an UP link DOWN (R291). -/
def execLinkSilence (l : Fin 6) (s : State) : Host.Outcome State Fault Refusal := .next (fall s l lsDown)

/-! ## Control flits (R267, R272, R273, R286, R293) -/

/-- IDLE: an IDLE control flit arrives; it carries nothing (R267). -/
def execIdle (_l : Fin 6) (s : State) : Host.Outcome State Fault Refusal := .next s

/-- IDENT: a link receives its far end's identity. A reserved field that is not zero discards it; LINK_FAR_ID holds any other, and a valid one makes the
far end known; on an UP link a changed serial number disables the link, and the Scribe records the change (R264, R286, R290, R291). -/
def execIdent (l : Fin 6) (i : Ident) (s : State) : Host.Outcome State Fault Refusal :=
  .next (
    if !s.linkLive l then s
    else if i.reserved ≠ 0 then s.count Obj.linkPktDiscard (l + 1) 64
    else
      let s := s.setB Obj.linkFarId (l + 1) (identBlob i)
      if !validIdent i then s
      else
        let y := s.link l
        let s := s.setLink l { y with far := some i }
        match y.mate with
        | some old =>
          if s.linkState l = lsUp ∧ old.serial ≠ i.serial then
            (fall s l lsDisabled).record 0x0031 [l, old.serial.toNat % 2 ^ 32, i.serial.toNat % 2 ^ 32]
          else s
        | none => s)

/-- Counts of VC 0, 1, …, as a map. -/
def counts (xs : List Half) : Map Half := entries 0 0 (xs.take 6)

/-- CREDIT: the far end's freed counts (R272). -/
def execCredit (l : Fin 6) (freed : List Half) (s : State) : Host.Outcome State Fault Refusal :=
  .next (if s.linkLive l then s.setLink l { s.link l with farFreed := counts freed } else s)

/-- AUDIT: flits that were sent and never arrived are freed, and the arrived counts become the sent ones (R273). -/
def execAudit (l : Fin 6) (sent : List Half) (s : State) : Host.Outcome State Fault Refusal :=
  let y := s.link l
  .next (
    if !s.linkLive l then s
    else
      let lost (v : Nat) : Half := (sent[v]?.getD 0) - look 0 y.arrived v
      creditDue (s.setLink l { y with
        freed := upTo 6 (fun v m => put 0 m v (look 0 y.freed v + lost v)) y.freed
        sinceCredit := upTo 6 (fun v m => put 0 m v (look 0 y.sinceCredit v + (lost v).toNat)) y.sinceCredit
        arrived := counts sent }) l)

/-- DEPART: the far end departs, and a link that is UP or in IDENT is DEPARTED until it trains again (R291, R293, R367). -/
def execDepart (l : Fin 6) (_serial : Dword) (s : State) : Host.Outcome State Fault Refusal :=
  .next (
    if s.linkState l = lsIdent ∧ s.linkLive l then
      (s.setN Obj.linkState (l + 1) lsDeparted).setLink l { s.link l with auto := true, attempt := 0 }
    else fall s l lsDeparted)

/-- CREDIT_SEND: the freed counts are sent (R272). -/
def execCreditSend (l : Fin 6) (s : State) : Host.Outcome State Fault Refusal :=
  .next (if s.linkLive l then sendFreed s l else s)

/-- AUDIT_SEND: the sent counts are sent (R273). -/
def execAuditSend (l : Fin 6) (s : State) : Host.Outcome State Fault Refusal :=
  .next (if s.linkLive l then s.send (.audit l (sixCounts (s.link l).sent)) else s)

/-- IDENT_SEND: the module's identity is sent (R286). -/
def execIdentSend (l : Fin 6) (s : State) : Host.Outcome State Fault Refusal :=
  .next (if s.linkLive l then s.send (.ident l (s.ident l)) else s)

/-- The DEPART control flit on every UP link (R293). -/
def sendDeparts (s : State) : State :=
  upTo 6 (fun l s => if s.linkState l = lsUp then s.send (.depart l s.fuses.serial) else s) s

/-! ## The plumb check (R287 to R290) -/

/-- MATCH of LINK_PLUMB (R289). -/
abbrev lpMatch : Nat := 1
/-- SWAPPED. -/
abbrev lpSwapped : Nat := 2
/-- CROSSED. -/
abbrev lpCrossed : Nat := 3
/-- WRONG_AXIS. -/
abbrev lpWrongAxis : Nat := 4
/-- UNPLANNED. -/
abbrev lpUnplanned : Nat := 5
/-- ABSENT. -/
abbrev lpAbsent : Nat := 6
/-- UNUSED. -/
abbrev lpUnused : Nat := 7

/-- The other link of an axis. -/
def otherLink (l : Nat) : Nat := if l % 2 = 0 then l + 1 else l - 1

/-- The port that a cabling plan gives link `n` of module index `i`; the empty plan is the default one (R288). -/
def planPort (plan : Bytes) (i n : Nat) : Option Nat :=
  if plan.isEmpty then some i
  else
    let p := field plan (0x10 + 12 * i + 2 * n) 2
    if p = 0xFFFF then none else some p

/-- A link's far end as it was last known: of a link that is neither in IDENT nor UP, the last that sent an IDENT, or the one that it was UP with
(R290). -/
def State.lastFar (s : State) (l : Nat) : Option Ident :=
  match (s.link l).far with
  | some i => some i
  | none => (s.link l).mate

/-- The switch tray and port of a link's far end, `far l`, in this rack. -/
def State.farPort (s : State) (far : Nat → Option Ident) (l : Nat) : Option (Nat × Nat) :=
  match far l with
  | some i => if i.role = 2 ∧ i.rack.toNat = s.rack then some (i.place.toNat, i.index.toNat) else none
  | none => none

/-- Whether link `l`'s far end is the port that entry `e` plans for link `n`. -/
def State.farIs (s : State) (far : Nat → Option Ident) (plan : Bytes) (e l n : Nat) : Bool :=
  match s.farPort far l, planPort plan e n with
  | some (t, p), some q => t == n && p == q
  | _, _ => false

/-- An entry's score (R289). -/
def State.score (s : State) (plan : Bytes) (e : Nat) : Nat :=
  (List.range 6).countP fun l => s.farIs s.farEnd plan e l l || s.farIs s.farEnd plan e l (otherLink l)

/-- The entry that scores highest, at least 4, with no other equal to it (R289). -/
def State.bestEntry (s : State) (plan : Bytes) : Option Nat :=
  (List.range 64).find? fun e => decide (4 ≤ s.score plan e) &&
    (List.range 64).all fun d => d == e || decide (s.score plan d < s.score plan e)

/-- The module and link to which a plan gives a port, as LINK_PLUMB_PEER names them (R289). -/
def plannedFor (plan : Bytes) (tray port : Nat) : Option Nat :=
  ((List.range 64).find? fun i => planPort plan i tray == some port && decide (tray < 6)).map fun i => i + 256 * tray

/-- LINK_PLUMB and LINK_PLUMB_PEER of a link in plan mode, against entry `e` or the whole plan, by the links' far ends `far` (R289). -/
def State.classify (s : State) (far : Nat → Option Ident) (plan : Bytes) (e : Option Nat) (l : Nat) : Nat × Nat :=
  match far l with
  | none => (lpAbsent, 0xFFFF)
  | some i =>
    let fits : Option Nat := e.bind fun e =>
      if s.farIs far plan e l l then some lpMatch
      else if s.farIs far plan e l (otherLink l) ∧ s.farIs far plan e (otherLink l) l then some lpSwapped
      else none
    match fits with
    | some c => (c, 0xFFFF)
    | none =>
      if i.role ≠ 2 then (lpUnplanned, 0xFFFF)
      else if i.num.toNat ≠ l / 2 + 1 then (lpWrongAxis, 0xFFFF)
      else match (s.farPort far l).bind fun (t, p) => plannedFor plan t p with
        | some peer => (lpCrossed, peer)
        | none => (lpUnplanned, 0xFFFF)

/-- The index of the far module that a link expects in strap mode: its own with bit 0 of the axis value inverted (R287). -/
def strapPeer (i l : Nat) : Nat := i ^^^ 4 ^ (l / 2)

/-- Whether a link's far end is the module that strap mode expects. -/
def State.strapFits (s : State) (i l : Nat) : Bool :=
  match s.farEnd l with
  | some f => f.role == 1 && f.index.toNat == strapPeer i l
  | none => false

/-- LINK_PLUMB of a link in strap mode, and the state after it. No code is stated for a far module that is not the expected one: it is
a free one of CROSSED, WRONG_AXIS and UNPLANNED (R287, R289; log 52). -/
def strapClass (s : State) (i l : Nat) : Nat × State :=
  match s.farEnd l with
  | none => (if (s.farEnd (otherLink l)).isNone then lpUnused else lpAbsent, s)
  | some _ =>
    if s.strapFits i l then (lpMatch, s)
    else
      let (r, s) := s.draw
      (lpCrossed + r % 3, s)

/-- The modules of the sub-cube that the used axes span around a coordinate (R287). -/
def subCube (i : Nat) (used : List Nat) : Nat :=
  ((List.range 64).filter fun j => (List.range 3).all fun a =>
    coordOn j a == coordOn i a || (used.contains a && coordOn j a == coordOn (i ^^^ 4 ^ a) a)).foldl (fun m j => setBit m j true) 0

/-- The modules with complete entries in a plan (R288). -/
def planModules (plan : Bytes) : Nat :=
  ((List.range 64).filter fun i => (planPort plan i 0).isSome).foldl (fun m j => setBit m j true) 0

/-- ROUTE_COORD of a module index and a source (R295). -/
def coordWord (i src : Nat) : Nat := i % 4 + 2 ^ 8 * (i / 4 % 4) + 2 ^ 16 * (i / 16) + 2 ^ 24 * src

/-- The links' classes stored in LINK_PLUMB and LINK_PLUMB_PEER. -/
def storeClass (s : State) (l : Nat) (c : Nat × Nat) : State :=
  (s.setN Obj.linkPlumb (l + 1) c.1).setN Obj.linkPlumbPeer (l + 1) c.2

/-- The classes of all links; in strap mode `i` is the straps' coordinate. -/
def classifyAll (s : State) (strap : Bool) (i : Nat) (plan : Bytes) (e : Option Nat) : State :=
  upTo 6 (fun l s =>
    if strap then
      let (c, s) := strapClass s i l
      storeClass s l (c, 0xFFFF)
    else storeClass s l (s.classify s.farEnd plan e l)) s

/-- The place that a passing PLUMB records, compared with SEC_LAST_PLACE (R404). -/
def notePlace (s : State) (i : Nat) : State :=
  let new := coordWord i 0 + 2 ^ 24 * s.rack
  let old := s.getN Obj.secLastPlace 0
  if old = new then s
  else
    let s := s.setN Obj.secLastPlace 0 new
    if old = 0xFFFF_FFFF then s else (s.setN Obj.secMoved 0 1).record 0x1013 [old, new]

/-- PLUMB ends: the links are classified, and where the check passes the module holds a coordinate and its matching links are UP; the
lowest link that fails is the item otherwise, and a failing link that was UP enters IDENT again, where its far end stays known (DESIGN CHOICE,
log 202); a link that a retrain holds comes UP by that retrain (R287 to R290, R367; links are UP from here, DEDUCED, log 47). -/
def plumb (s : State) : State × Option Nat :=
  let strap := s.roles.all (· == 1)
  let plan := s.getB Obj.routePlan 0
  let e := if s.roles.all (· == 2) then s.bestEntry plan else none
  let s := classifyAll s strap s.strapIndex plan e
  let code (l : Nat) : Nat := s.getN Obj.linkPlumb (l + 1)
  let good (l : Nat) : Bool := code l == lpMatch || code l == lpSwapped
  match (List.range 6).find? fun l => !(good l || (strap && code l == lpUnused)) with
  | some l => (upTo 6 (fun l s => if s.linkState l = lsUp ∧ !good l then enterIdent (leaveUp s l lsIdent) l else s) s, some l)
  | none =>
    let i := if strap then s.strapIndex else e.getD 0
    let used := (List.range 3).filter fun a => code (2 * a) != lpUnused
    let s := s.setN Obj.routeCoord 0 (coordWord i (if strap then 1 else 2))
    let s := { s with net := { s.net with plan, populated := if strap then subCube i used else planModules plan } }
    let s := upTo 6 (fun l s =>
      if s.linkState l = lsIdent ∧ good l ∧ !(s.link l).retrain then
        (s.setN Obj.linkState (l + 1) lsUp).setLink l { s.link l with mate := (s.link l).far }
      else s) s
    (notePlace s i, none)

/-! ## The end of a retrain (R290, R363, R367) -/

/-- Whether a link's far end passes the check against the coordinate held, and the link classified. The far end of the other link of its axis, which may
be neither in IDENT nor UP, is the one last known (R289, R290). -/
def recheck (s : State) (l i : Nat) : State × Bool :=
  if bits (s.getN Obj.routeCoord 0) 24 8 = 1 then
    let (c, s) := strapClass s i l
    (storeClass s l (c, 0xFFFF), c == lpMatch)
  else
    let c := s.classify s.lastFar s.net.plan (some i) l
    (storeClass s l c, c.1 == lpMatch || c.1 == lpSwapped)

/-- A link's retrain ends in state `st`, and the Scribe records the attempt (R367). -/
def closeRetrain (s : State) (l st : Nat) (ok : Bool) : State :=
  let y := s.link l
  let s := (s.setN Obj.linkState (l + 1) st).setLink l { y with
    retrain := false, accept := false, training := 0, attempt := if st = lsUp then 0 else y.attempt
    auto := (y.auto || y.began == lsUp) && (st == lsDown || st == lsDeparted) }
  s.record 0x0030 [l, y.attempt, Config.retrainResult ok]

/-- A link's retrain ends: it returns to UP only when it trained, passed its soak and its far end fits the coordinate held, with the
identity it had or a replacement that was accepted; the reason and item of RS_DETAIL where it does not (R290, R367; the
reasons, log 48; without a coordinate the link stays in IDENT, log 49). -/
def endRetrain (s : State) (l : Nat) : State × Option (Byte × Nat) :=
  let y := s.link l
  let back := if y.began = lsDisabled then lsDisabled
    else if y.began = lsDeparted ∨ s.linkState l = lsDeparted then lsDeparted else lsDown
  if s.linkState l ≠ lsIdent ∨ !s.soaked l then (closeRetrain s l back false, some (0x07, l))
  else match s.ownIndex, y.far with
    | none, _ => (closeRetrain s l lsIdent true, none)
    | some _, none => (closeRetrain s l back false, some (0x07, l))
    | some i, some f =>
      let same : Bool := match y.mate with
        | some old => sameEnd old f
        | none => true
      let change (s : State) : State := s.record 0x0031 [l, (y.mate.getD f).serial.toNat % 2 ^ 32, f.serial.toNat % 2 ^ 32]
      match recheck s l i with
      | (s, fits) =>
        if fits ∧ (y.accept ∨ (same ∧ y.began ≠ lsDisabled)) then
          let s := closeRetrain (if same then s else change s) l lsUp true
          (s.setLink l { s.link l with mate := some f }, none)
        else (closeRetrain (if same then s else change s) l lsDisabled false, some (0x08, l))

end Sys2Proof.Machine
end

