-- ==== Sys2Proof/Machine/Hosts.lean ====
section
/-! DEFINITION. Host ports: their configuration values (R296), their registers as a host reads and writes them (R300 to R305, R347, R378),
losing and attaching a host (R297, R319, R320), the BAR4 aperture (R299) and the doorbell pages (R298, R308). -/

namespace Sys2Proof.Machine

/-! ## Ports (R19, R484) -/

/-- Host ports that the bifurcation straps select. -/
def State.portCount (s : State) : Nat :=
  match s.pins.straps.bifurcation.toNat with
  | 0 => 1
  | 1 => 2
  | 2 => 4
  | _ => 0

/-- Whether port `n` has an endpoint, out of reset. -/
def State.portUp (s : State) (n : Nat) : Bool := !s.pins.inReset && decide (n < s.portCount)

/-! ## Configuration values and capabilities (R296) -/

/-- Vendor ID and Subsystem Vendor ID. -/
def pcieVendor : Nat := 0x1EC1
/-- Device ID. -/
def pcieDevice : Nat := 0x4B4A
/-- Class code: processing accelerator. -/
def pcieClass : Nat := 0x12_0000
/-- Subsystem ID: of the variant KJM-A22, KJM-B20 or KJM-C17. -/
def State.pcieSubsystem (s : State) : Nat :=
  match s.fuses.variant with
  | 1 => 0x0A22
  | 2 => 0x0B20
  | _ => 0x0C17
/-- Revision ID: the die stepping. -/
def State.pcieRevision (s : State) : Nat := s.fuses.stepping
/-- The number of the Device Serial Number capability: ID_SERIAL. -/
def State.pcieSerial (s : State) : Dword := s.fuses.serial
/-- A capability of a port's function. -/
inductive PcieCap where
  | msix (vectors : Nat)
  | aer
  | functionLevelReset
  | resizableBar (bar : Nat)
  | tenBitTags
  | deviceSerial (number : Dword)
  deriving DecidableEq, Repr

/-- The capabilities of a port's function. -/
def State.pcieCaps (s : State) : List PcieCap :=
  [.msix pcieVectors, .aer, .functionLevelReset, .resizableBar 4, .tenBitTags, .deviceSerial s.pcieSerial]
/-- Max_Payload_Size supported, in bytes. -/
def pcieMaxPayload : Nat := 512
/-- The largest Max_Read_Request_Size honoured, in bytes. -/
def pcieMaxReadRequest : Nat := 4096
/-- The rates of service, in GT/s. -/
def pcieServiceRates : List Nat := [128, 64, 32]
/-- The lanes that the bifurcation straps give a port (R19). -/
def State.pcieWidth (s : State) : Nat := 16 / max 1 s.portCount

/-- Whether an offset belongs to the minimal register set that answers while the boot image runs (R347). -/
def minimal (off : Nat) : Bool := decide (off < 0x100) || (decide (0x200 ≤ off) && decide (off < 0x400))

/-- Whether the firmware performs an emulated access of port `n` at an offset at once (R301, R347, R378). -/
def State.hears (s : State) (n off : Nat) : Bool :=
  s.portUp n && !s.fw.busy && !s.fw.hung && (s.fw.image == .runtime || (s.fw.image == .boot && minimal off))

/-- Whether an emulated write of port `n` waits: the firmware has stopped making progress, and its restart has not begun (R378). -/
def State.stalled (s : State) (n : Nat) : Bool := s.portUp n && s.fw.hung && !s.fw.busy

/-- An emulated write of port `n`, the command `c`. It is performed by `run`; while the firmware is stuck the station takes it into the port's
queue, and one that finds the queue full is discarded and counted (R378). -/
def State.emulated (s : State) (n : Nat) (c : Instr) (run : State → State) : State :=
  if !s.stalled n then run s
  else if (s.port n).emu.length < 64 then s.setPort n { s.port n with emu := (s.port n).emu ++ [c] }
  else s.setR n Reg.hpEmuLate ((s.getR n Reg.hpEmuLate + 1) % 2 ^ 32)

/-- Whether an offset is answered: in recovery mode the identity registers and the raising control registers are (R391). -/
def State.answers (s : State) (n off : Nat) : Bool :=
  s.hears n off || (s.portUp n && s.fw.image == .recovery && (decide (off < 0x100) || (decide (0x200 ≤ off) && decide (off < 0x240))))

/-- Whether the stored training record is valid for the warm fast path: it is there, and the hottest die sensor lies within 15 °C of its
temperature, and MEM_GRADE_SET is the grade that it was trained at (R365; a cold reset, and a change or retrain that voids the record, removes it). -/
def State.fastPath (s : State) : Bool :=
  match s.raising.record with
  | some (g, t) => s.getN Obj.memGradeSet 2 == g && decide ((s.raising.hottest - t).natAbs ≤ 15_000)
  | none => false

/-- The partitions that a port owns, as a mask, of those that meet `p`. -/
def State.ownedMask (s : State) (n : Nat) (p : Nat → Bool) : Nat :=
  (List.range 8).foldl (fun m i => if s.owner i = some n ∧ p i then setBit m i true else m) 0

/-- The hold time of a port that is left, in ms (R302, R319, R320). -/
def State.holdLeft (s : State) (n : Nat) : Nat :=
  let x := s.port n
  if x.holding then s.getN Obj.hostHold (n + 1) * 1000 - (s.uptime - x.holdFrom.toNat) / 1_000_000 else x.holdLeft

/-- PT_CTX_INFO (R305). -/
def State.ctxInfo (s : State) (n : Nat) : Nat :=
  let x := s.getR n Reg.ptCtxSel
  if !(List.range 8).any (fun p => s.owner p == some n && s.ownsCtx p x) then 0
  else
    let c := s.ctx x
    c.state.ctorIdx + match c.slot with
      | some k => 8 + 256 * k
      | none => 256 * 0x1FFF

/-- HP_STATUS (R302). -/
def State.hpStatus (s : State) (n : Nat) : Nat :=
  (if s.getN Obj.hostState (n + 1) = 1 then 1 else 0) + (if s.fw.busy then 2 else 0) +
    (if s.getR 0 Reg.rsService = 2 then 4 else 0) + (if s.getR 0 Reg.rsService = 3 then 8 else 0) +
    2 ^ 8 * s.ownedMask n (fun _ => true) + 2 ^ 16 * s.ownedMask n fun p => s.pstate p == psShored

/-- RS_PROGRESS: the per mille of the running step; zero while none runs (R350, R352; log 96). -/
def State.stepProgress (s : State) : Nat :=
  match s.raising.running with
  | some (code, _) => min 1000 (Config.stepProgress code (s.uptime - s.raising.stepAt.toNat))
  | none => 0

/-- Whether an offset is the mailbox's MB_REQ or MB_RSP (R344). -/
def mailboxBytes (off : Nat) : Bool := decide (0x600 ≤ off) && decide (off < 0x1000)

/-- What a host reads at an offset of port `n`'s mortise window: zero at one that no table lists (R300 to R305, R347). A read has no
effect but HP_TIME_LO's. -/
def State.readReg (s : State) (n off : Nat) : Nat :=
  match off with
  | 0x100 => s.getR n off
  | 0x104 => s.hpStatus n
  | 0x110 => s.now % 2 ^ 32
  | 0x114 => (s.port n).timeHi.toNat
  | _ =>
    if (regRow off).isNone ∧ !mailboxBytes off then 0
    else if s.fw.busy ∨ s.fw.hung then 0xFFFF_FFFE
    else if !s.answers n off then 0
    else match off with
    | 0x8 => s.fuses.variant
    | 0xC => n + 16 * s.pins.straps.bifurcation.toNat
    | 0x10 => s.fuses.serial.toNat
    | 0x18 => if s.fw.image = .runtime then s.getN Obj.fwRtVer 0 else 0
    | 0x1C => s.getN Obj.routeCoord 0
    | 0x10C => s.holdLeft n
    | 0x22C => s.stepProgress
    | 0x230 => if s.fastPath then 1 else 0
    | 0x4008 => look 0 (s.part (s.getR n Reg.ptSel)).results n
    | 0x400C => s.pstate (s.getR n Reg.ptSel) + 2 ^ 8 * s.why (s.getR n Reg.ptSel)
    | 0x4014 => s.ctxInfo n
    | _ => match regRow off with
      | some r => if r.access = .wo then 0 else s.getR n off
      | none =>
        if off < 0xB00 then field (s.port n).mbReq (off - 0x600) 4 else field (s.port n).mbRsp (off - 0xB00) 4

/-- What a host reads at an offset of doorbell page `q`: the SQ head where port `n` owns the queue, zero at every other word and
on every other port (R298, R308). -/
def State.readDoorbell (s : State) (n : Fin 4) (q off : Nat) : Nat :=
  if off = 0x8 ∧ s.portUp n ∧ (s.queue q).port = some n then (s.queue q).sqHead else 0

/-- The 32-bit word at an offset of port `n`'s BAR2: doorbell pages, the MSI-X table and its pending bits; the rest reads zero
(R298; log 134). -/
def State.readBar2 (s : State) (n : Fin 4) (off : Nat) : Nat :=
  if off < 0x100_0000 then s.readDoorbell n (off / 4096) (off % 4096)
  else if off < 0x100_8000 then leNat (msixBytes (s.port n) (off - 0x100_0000) 4)
  else if off < 0x100_8000 + pcieVectors / 8 then leNat (readBytes (s.port n).pba (off - 0x100_8000) 4)
  else 0

/-! ## Register accesses (R301, R302, R378) -/

/-- The range of values that a register takes; a write outside it is ignored (R305; DESIGN CHOICE, log 54). -/
def regLimit (off : Nat) : Nat := if off = Reg.ptSel then 7 else if off = Reg.ptCtxSel then 4095 else 2 ^ 64

/-- Registers of the mailbox that are not written while it is BUSY (R344). -/
def mailboxHeld (s : State) (n off : Nat) : Bool := bit (s.getR n Reg.mbStatus) 0 && decide (0x400 ≤ off) && decide (off < 0x1000)

/-- REGISTER_WRITE: a write to a register with no behaviour of its own stores the value; MB_REQ takes 32-bit words (R301, R344, R347;
log 53). Any other offset ignores it. -/
def execRegisterWrite (n : Fin 4) (offset : Nat) (value : Dword) (s : State) : Host.Outcome State Fault Refusal :=
  .next (
    s.emulated n (.registerWrite n offset value) fun s =>
    if !s.hears n offset ∨ mailboxHeld s n offset then s
    else match regRow offset with
      | some r =>
        let v := value.toNat % 2 ^ (8 * r.size)
        if r.access ≠ .rws ∨ offset = Reg.hpHeartbeat ∨ regLimit offset < v then s
        else s.setR n offset (if offset = Reg.trEnable then setBit v 31 true else v)
      | none =>
        if 0x600 ≤ offset ∧ offset < 0xB00 ∧ offset % 4 = 0 then
          s.setPort n { s.port n with
            mbReq := patch (padTo 1280 (s.port n).mbReq) (offset - 0x600) (leBytes 4 (value.toNat % 2 ^ 32)) }
        else s)

/-- EMU_LATE: an emulated read that the firmware has not answered in 20 µs is answered with 0xFFFF_FFFE and counted; `stuck` says whether the
firmware has stopped making progress (R378; log 106). -/
def execEmuLate (n : Fin 4) (stuck : Bool) (s : State) : Host.Outcome State Fault Refusal :=
  .next (
    if !s.portUp n then s
    else
      let s := (s.send (.hostRead n (some (leBytes 4 0xFFFF_FFFE)))).setR n Reg.hpEmuLate ((s.getR n Reg.hpEmuLate + 1) % 2 ^ 32)
      if stuck ∧ !s.fw.busy ∧ (s.fw.image = .runtime ∨ s.fw.image = .boot) then { s with fw := { s.fw with hung := true } } else s)

/-- HP_TIME_LO: a read of the low word of rack time captures the high word (R302). -/
def execHpTimeLo (n : Fin 4) (s : State) : Host.Outcome State Fault Refusal :=
  .next (
    if !s.portUp n then s
    else (s.setPort n { s.port n with timeHi := BitVec.ofNat 32 (s.now / 2 ^ 32) }).send
      (.hostRead n (some (leBytes 4 (s.now % 2 ^ 32)))))

/-- HP_HEARTBEAT: a write is a heartbeat; the hardware records its rack time (R302, R319). -/
def execHpHeartbeat (n : Fin 4) (value : Word) (s : State) : Host.Outcome State Fault Refusal :=
  .next (
    if !s.portUp n then s
    else (s.setPort n { s.port n with hbTime := s.clock.time }).setR n Reg.hpHeartbeat value.toNat)

/-! ## Losing a host (R297, R319, R485) -/

/-- A SHORED partition's host is lost: HOST is set and the hold timer starts at once; a HOST_HOLD of 0 releases it (R316, R320, R457). -/
def loseShored (s : State) (p n : Nat) : State :=
  if s.getN Obj.hostHold (n + 1) = 0 then release s p else settleWork (shore (startHold s n) p whyHost) p

/-- HOST_LOST: the host of a port is declared lost. Fetching from its queues stops, its partitions drain, and those that are SHORED keep
HOST; ownership of raising is open (R316, R319, R349). -/
def hostLost (s : State) (n : Nat) : State :=
  if s.getN Obj.hostState (n + 1) = 2 then s
  else
    let s := ((s.setN Obj.hostState (n + 1) 2).count Obj.hostLosses (n + 1)).record 0x2013 [n, s.ownedMask n fun _ => true]
    let s := if s.getR 0 Reg.rsOwner = n then { s with raising := { s.raising with orphan := true } } else s
    upTo 8 (fun p s =>
      if s.owner p ≠ some n then s
      else if s.inService p then settleWork (startDrain s p whyHost) p
      else if s.pstate p = psShored then loseShored s p n
      else if s.pstate p = psRaising ∨ s.pstate p = psResetting then
        s.setPart p { s.part p with after := (s.part p).after ||| whyHost }
      else s) s

/-- A reset of a port's function: its queue, aperture and log registers return to their defaults, and its ring stops; BAR4 is 1 GiB, and the MSI-X table
and its pending bits are as at reset (R297, R298, R380). -/
def resetFunction (s : State) (n : Nat) : State :=
  let drop (off : Nat) : Bool := (decide (0x1000 ≤ off) && decide (off < 0x4000)) || decide (0x4018 ≤ off)
  ({ s with regs := s.regs.filter fun e => !(e.1 / 0x1_0000 == n && drop (e.1 % 0x1_0000)) }).setPort n
    { s.port n with logging := false, bme := false, barSize := gib, unmasked := false, msix := [], pba := [] }

/-- A reset of the port's function, which loses its host; Bus Master Enable is clear after it (PRESUMED, log 55). -/
def functionReset (s : State) (n : Nat) : State := if s.portUp n then hostLost (resetFunction s n) n else s

/-- FUNCTION_LEVEL_RESET (R297). -/
def execFunctionLevelReset (n : Fin 4) (s : State) : Host.Outcome State Fault Refusal := .next (functionReset s n)
/-- HOT_RESET (R297). -/
def execHotReset (n : Fin 4) (s : State) : Host.Outcome State Fault Refusal := .next (functionReset s n)
/-- PERST: PERSTn_N resets host port n alone (R485). -/
def execPerst (n : Fin 4) (s : State) : Host.Outcome State Fault Refusal := .next (functionReset s n)

/-- Bus Master Enable of a port clears, or its link is down: nothing more is written to its host, which is lost (R297, R319). -/
def cutOff (s : State) (n : Nat) : State :=
  if s.portUp n then hostLost (s.setPort n { s.port n with bme := false }) n else s

/-- PCIE_LINK_DOWN (R297). -/
def execPcieLinkDown (n : Fin 4) (s : State) : Host.Outcome State Fault Refusal := .next (cutOff s n)
/-- BUS_MASTER_ENABLE_CLEAR (R297). -/
def execBusMasterEnableClear (n : Fin 4) (s : State) : Host.Outcome State Fault Refusal := .next (cutOff s n)

/-- DETACH: HP_CTRL 2 declares the port's host lost (R302, R319). -/
def execDetach (n : Fin 4) (s : State) : Host.Outcome State Fault Refusal :=
  .next (s.emulated n (.detach n) fun s => if s.hears n Reg.hpCtrl then hostLost s n else s)

/-- HEARTBEAT_TIMEOUT: HOST_HB_LIMIT has passed since the recorded time of an attached host's last heartbeat (R319). -/
def execHeartbeatTimeout (n : Fin 4) (s : State) : Host.Outcome State Fault Refusal :=
  .next (
    if s.serving ∧ s.getN Obj.hostState (n + 1) = 1 ∧
        s.getN Obj.hostHbLimit (n + 1) * 1_000_000 ≤ s.now - (s.port n).hbTime.toNat then hostLost s n
    else s)

/-! ## Attaching and the hold time (R320) -/

/-- Port `n`'s link has trained as `k`: no wider than its straps give, and one below the rates of service is an event (R296; log 134). -/
def linkTrained (s : State) (n : Nat) (k : PcieLink) : State :=
  let s := s.setPort n { s.port n with lanes := min k.lanes s.pcieWidth, rate := k.rate }
  if pcieServiceRates.contains k.rate then s else s.note none .portRate [n, k.lanes, k.rate]

/-- A size that BAR4 can have: 1 to 64 GiB in powers of two (R298). -/
def barAllowed (n : Nat) : Bool := [gib, 2 * gib, 4 * gib, 8 * gib, 16 * gib, 32 * gib, 64 * gib].contains n

/-- The port as its host has set it up: BAR4's size, the MSI-X table, and, of the vectors that it has unmasked, the messages that were pending
(R298; PRESUMED, log 161). -/
def setUp (s : State) (n : Nat) (k : PcieSetup) : State :=
  let x := s.port n
  let x := match k.bar4 with
    | some b => if barAllowed b then { x with barSize := b } else x
    | none => x
  let x := k.msix.foldl (fun x w => writeMsix x w.1 w.2) (if k.unmask then unmaskAll x else x)
  let due := (if x.pba.isEmpty then [] else List.range pcieVectors).filter fun v => bit (byteAt x.pba (v / 8)).toNat (v % 8) && !masked x v
  let s := s.setPort n (due.foldl (fun x v => setPending x v false) x)
  due.foldl (fun s v => sendMsix s n (BitVec.ofNat 32 v)) s

/-- ATTACH: HP_CTRL 1 attaches the host and stops the hold timer; the host has set Bus Master Enable (R302, R320; PRESUMED, log 55), and what else it
has set through PCIe is in force (R298; DESIGN CHOICE, log 161). An event is recorded when the link's training is first known or has changed (R296;
log 134). -/
def execAttach (x : AtPort) (s : State) : Host.Outcome State Fault Refusal :=
  let n := x.port
  let k := x.link
  let u := x.setup
  .next (
    s.emulated n (.attach x) fun s =>
    if !s.hears n Reg.hpCtrl then s
    else
      let s := setUp s n u
      let x := s.port n
      let s := if x.rate = k.rate ∧ x.lanes = min k.lanes s.pcieWidth then s else linkTrained s n k
      (s.setPort n { s.port n with holding := false, holdLeft := s.holdLeft n, bme := true }).setN Obj.hostState (n + 1) 1)

/-- HOLD_EXPIRE: the hold timer of a port expires; its SHORED partitions that still have HOST set are released (R320). -/
def execHoldExpire (n : Fin 4) (s : State) : Host.Outcome State Fault Refusal :=
  let x := s.port n
  .next (
    if !s.serving ∨ !x.holding ∨ s.uptime - x.holdFrom.toNat < s.getN Obj.hostHold (n + 1) * 1_000_000_000 then s
    else upTo 8 (fun p s =>
      if s.owner p = some n.val ∧ s.pstate p = psShored ∧ bit (s.why p) 1 then release s p else s)
      (s.setPort n { x with holding := false, holdLeft := 0 }))

/-! ## The aperture (R299) -/

/-- The address in main memory that an aperture access reaches; none where it is refused (R48, R189, R298, R299). -/
def aperture (s : State) (n off len : Nat) : Option (Nat × Nat) :=
  let p := s.getR n Reg.ptAperPart
  let a := s.getR n Reg.ptAperBase + off
  if 8 ≤ p ∨ s.owner p ≠ some n ∨ !s.inService p ∨ s.plain p * gib < a + len then none else some (p, a)

/-- A host's read through the aperture ends: one that meets an uncorrectable burst or a failed channel ends with Completer Abort (R200, R299, R366). -/
def aperRead (s : State) (n p a len : Nat) : State :=
  match readRange 6 s p a len with
  | (s, st, bs) => s.send (.hostRead n (if st = stOk then some bs else none))

/-- BAR4_READ: a host reads through the aperture; a refused read ends with Completer Abort (R200, R299). A read of a channel that is retrained waits
(R366). -/
def execBar4Read (n : Fin 4) (offset len : Nat) (s : State) : Host.Outcome State Fault Refusal :=
  .next (
    if !s.portUp n ∨ len = 0 ∨ (s.port n).barSize < offset + len then s
    else match aperture s n offset len with
      | none => (s.send (.hostRead n none)).setR n Reg.hpAperErr ((s.getR n Reg.hpAperErr + 1) % 2 ^ 32)
      | some (p, a) => if rangeWaits s p a len then holdBack s (.read n p a len) else aperRead s n p a len)

/-- BAR4_WRITE: a host writes through the aperture; a refused write is discarded and counted, and one to a channel that is retrained waits
(R174, R299, R366). -/
def execBar4Write (n : Fin 4) (offset : Nat) (data : Bytes) (s : State) : Host.Outcome State Fault Refusal :=
  .next (
    if !s.portUp n ∨ data.isEmpty ∨ (s.port n).barSize < offset + data.length then s
    else match aperture s n offset data.length with
      | none => s.setR n Reg.hpAperErr ((s.getR n Reg.hpAperErr + 1) % 2 ^ 32)
      | some (p, a) => if writeWaits s p a data.length then holdBack s (.write n p a data) else (writeRange s p a data).1)

/-! ## Queues (R306, R307, R438) -/

/-- A queue pair that a port creates from its queue registers. -/
def newQueue (s : State) (n : Fin 4) : Queue :=
  { port := some n, part := s.getR n Reg.qsPart, sqBase := BitVec.ofNat 64 (s.getR n Reg.qsSqBase), sqSize := s.getR n Reg.qsSqSize
    cqBase := BitVec.ofNat 64 (s.getR n Reg.qsCqBase), cqSize := s.getR n Reg.qsCqSize
    vector := BitVec.ofNat 32 (s.getR n Reg.qsVector), weight := s.getR n Reg.qsWeight
    timeout := BitVec.ofNat 32 (s.getR n Reg.qsTimeout), shed := s.getR n Reg.qsShed }

/-- A ring size that R306 allows. -/
def ringSize (k : Nat) : Bool := [16, 32, 64, 128, 256, 512, 1024, 2048, 4096, 8192, 16384, 32768, 65536].contains k

/-- QS_RESULT of a CREATE: 0 DONE, 2 IN_USE, 5 QUOTA, 4 PARTITION, 3 INVALID, by the conditions of R306 in its order, then the
registers' ranges and QS_SHED (R306, R438; the order and the ranges, log 56). -/
def createResult (s : State) (n : Fin 4) : Nat :=
  let q := newQueue s n
  let mine := s.queues.countP fun e => e.2.port == some n
  if 4095 < s.getR n Reg.qsQid then 3
  else if (s.queue (s.getR n Reg.qsQid)).port.isSome then 2
  else if s.getN Obj.hostQmax (n + 1) ≤ mine then 5
  else if q.sqBase.toNat % 4096 ≠ 0 ∨ q.cqBase.toNat % 4096 ≠ 0 ∨ !ringSize q.sqSize ∨ !ringSize q.cqSize then 3
  else if 8 ≤ q.part ∨ s.owner q.part ≠ some n.val ∨ !(s.inService q.part || s.pstate q.part == psShored) then 4
  else if !(decide (q.vector.toNat < pcieVectors) || q.vector == 0xFFFF_FFFF) ∨ !decide (1 ≤ q.weight ∧ q.weight ≤ 15) ∨
      !decide (1 ≤ q.timeout.toNat ∧ q.timeout.toNat ≤ 4_000_000_000) ∨ 1 < q.shed then 3
  else 0

/-- CREATE: QS_CMD 1 creates queue QS_QID where R306 allows it. -/
def execCreate (n : Fin 4) (s : State) : Host.Outcome State Fault Refusal :=
  .next (
    s.emulated n (.create n) fun s =>
    if !s.hears n Reg.qsCmd then s
    else
      let r := createResult s n
      let s := s.setR n Reg.qsResult r
      if r = 0 then s.setQueue (s.getR n Reg.qsQid) (newQueue s n) else s)

/-- The accepted commands of a queue that have not started complete with ABORTED; one that held its partition's boundary, as a STEP that
waits does, gives it up (R153, R307, R314). -/
def abortUnstarted (s : State) (qn : Nat) : State :=
  let q := s.queue qn
  q.cmds.foldl (fun s c =>
    if !c.unstarted then s
    else
      let y := s.part q.part
      let s := if y.boundary = some (qn, c.seq) then s.setPart q.part { y with boundary := none } else s
      makeDone s qn c.seq { status := stAborted }) s

/-- DELETE: QS_CMD 2 stops fetching from an owned queue; accepted commands that have not started complete with ABORTED, and the queue goes
once its last completion is written (R307). -/
def execDelete (n : Fin 4) (s : State) : Host.Outcome State Fault Refusal :=
  let qn := s.getR n Reg.qsQid
  let q := s.queue qn
  .next (
    s.emulated n (.delete n) fun s =>
    if !s.hears n Reg.qsCmd then s
    else if q.port ≠ some n then s.setR n Reg.qsResult 3
    else
      let s := (s.setR n Reg.qsResult 1).setQueue qn { q with deleting := true }
      let s := s.setPort n { s.port n with deletes := some qn }
      settleWork (abortUnstarted s qn) q.part)

/-- QUERY: QS_CMD 3 loads the fields of an owned queue (R306, R438). -/
def execQuery (n : Fin 4) (s : State) : Host.Outcome State Fault Refusal :=
  let q := s.queue (s.getR n Reg.qsQid)
  .next (
    s.emulated n (.query n) fun s =>
    if !s.hears n Reg.qsCmd then s
    else if q.port ≠ some n then s.setR n Reg.qsResult 3
    else
      [(Reg.qsSqBase, q.sqBase.toNat), (Reg.qsSqSize, q.sqSize), (Reg.qsCqBase, q.cqBase.toNat), (Reg.qsCqSize, q.cqSize),
        (Reg.qsVector, q.vector.toNat), (Reg.qsPart, q.part), (Reg.qsWeight, q.weight), (Reg.qsTimeout, q.timeout.toNat),
        (Reg.qsShed, q.shed), (Reg.qsResult, 0)].foldl (fun s (o, v) => s.setR n o v) s)

/-! ## Doorbells (R298, R308) -/

/-- DB_SQ_TAIL: the owner of queue `q` writes its SQ tail; `entries` are the commands that it placed up to there. A value at or above the
size is ignored and recorded; otherwise the module fetches and accepts what it may (R298, R308, R441). -/
def execDbSqTail (n : Fin 4) (q : Fin 4096) (value : Word) (entries : List Bytes) (s : State) : Host.Outcome State Fault Refusal :=
  let x := s.queue q
  let v := value.toNat
  .next (
    if !s.portUp n ∨ x.port ≠ some n then s
    else if x.sqSize ≤ v then s.record 0x0050 [n, q, v, 0]
    else
      let k := (v + x.sqSize - x.sqTail) % x.sqSize
      let new := (List.range k).map fun i => padTo 64 (entries[i]?.getD [])
      fetchQueue (s.setQueue q { x with sqTail := v, posted := x.posted ++ new }) q)

/-- DB_CQ_HEAD: the owner of queue `q` writes its CQ head, which frees completion space and re-arms the interrupt (R308). -/
def execDbCqHead (n : Fin 4) (q : Fin 4096) (value : Word) (s : State) : Host.Outcome State Fault Refusal :=
  let x := s.queue q
  let v := value.toNat
  .next (
    if !s.portUp n ∨ x.port ≠ some n then s
    else if x.cqSize ≤ v then s.record 0x0050 [n, q, v, 1]
    else
      let s := s.setQueue q { x with cqHead := v, msiSent := false }
      if s.serving then settleWork s x.part else s)

end Sys2Proof.Machine
end

