-- ==== Sys2Proof/Machine/Partitions.lean ====
section
/-! DEFINITION. Raising, resetting, shoring and releasing partitions by PT_CMD (R304, R305, R316, R359, R418). -/

namespace Sys2Proof.Machine

/-- Values of PT_RESULT (R305). -/
abbrev ptDone : Nat := 0
/-- RUNNING. -/
abbrev ptRunning : Nat := 1
/-- STATE_CONFLICT. -/
abbrev ptConflict : Nat := 2
/-- NOT_OWNER. -/
abbrev ptNotOwner : Nat := 3

/-- A PT_CMD of port `n` on the partition that PT_SEL names: a port that does not own it changes nothing and reads NOT_OWNER, a state
outside `states` reads STATE_CONFLICT (R305, R316, R378). `c` is the command. -/
def ptCmd (n : Fin 4) (c : Instr) (s : State) (states : List Nat) (run : Nat → State → State) : State :=
  s.emulated n c fun s =>
  let p := s.getR n Reg.ptSel
  if !s.hears n Reg.ptCmd then s
  else if s.owner p ≠ some n.val then s.setResult p n ptNotOwner
  else if !states.contains (s.pstate p) ∨ (s.part p).releasing then s.setResult p n ptConflict
  else run p s

/-! ## Formation (R304, R359) -/

/-- A partition that fails its checks stays, or returns to, ABSENT; the Scribe names the first layout check that failed (R184, R304). -/
def failForm (s : State) (p : Nat) (r : Nat × Nat) : State :=
  let y := s.part p
  let s := (s.setPstate p psAbsent).setPart p { y with after := 0 }
  let s := match s.owner p with
    | some n => s.setResult p n r.1
    | none => s
  if r.1 = 6 then s.recordFor (some p) 0x0041 [p, Config.layoutCheck r.2] else s

/-- RAISE: PT_CMD 1. The checks are made in REDUCED service and READY; before that the partition waits, RAISING (R304, R359). -/
def execRaise (n : Fin 4) (s : State) : Host.Outcome State Fault Refusal :=
  .next (ptCmd n (.raise n) s [psAbsent] fun p s =>
    let r := if s.served = 0 then (0, 0) else formCheck s p
    if r.1 = 0 then (s.setPstate p psRaising).setResult p n ptRunning else failForm s p r)

/-- A placed partition enters service: its extents, its free ring and its bays are its own; it becomes SHORED where its host was lost, and
while power or coolant shores (R181, R191, R304, R316, R442, R451). -/
def formed (s : State) (p : Nat) (x : Placed) : State :=
  let s := setTiers s x.tiers
  let ring := ringOf x.pool
  let s := s.setPart p { s.part p with extents := x.plain, pool := x.pool.map (·.2), ring }
  let s := claimBays (countExtents (s.setN Obj.partFramesFree (p + 1) ring.length)) p
  let s := (s.setPstate p s.previous).endRunning p ptDone
  let y := s.part p
  let more := y.after ||| s.shoreReasons
  if more = 0 then s else shore (s.setPart p { y with after := 0 }) p more

/-- Whether every extent of a placement, and every half or tier that changes mode, has been scrubbed (R180, R203). -/
def scrubbed (s : State) (x : Placed) : Bool :=
  s.scrubExt.all fun e => !x.plain.contains e && !(x.pool.any (·.2 == e)) &&
    modeIn x.tiers (e / 24) (e % 24 / 12) == s.tierMode (e / 24) (e % 24 / 12)

/-- FORMATION: the firmware checks a RAISING partition's layout, and once scrubbing allows places its extents; the partition enters REDUCED
or READY, or fails to ABSENT (R304, R316, R359). -/
def execFormation (p : Fin 8) (s : State) : Host.Outcome State Fault Refusal :=
  .next (
    if s.pstate p ≠ psRaising ∨ s.served = 0 ∨ !s.serving ∨ s.pins.departed then s
    else
      let r := formCheck s p
      if r.1 ≠ 0 then failForm s p r
      else match placement s p with
        | none => s
        | some x => if scrubbed s x then formed s p x else s)

/-! ## Resets (R415, R417, R418) -/

/-- RESET: PT_CMD 2 begins a partition reset (R316, R418). -/
def execReset (n : Fin 4) (s : State) : Host.Outcome State Fault Refusal :=
  .next (ptCmd n (.reset n) s [psReduced, psReady, psShored] fun p s =>
    startReset (s.setResult p n ptRunning) p 1 (s.pstate p))

/-- Whether a partition's generation was current at any moment of the last second (R417). -/
def genRecent (s : State) (p : Nat) : Bool :=
  (s.part p).gens.any fun (g, t) => g == s.getN Obj.partGen (p + 1) && decide (s.uptime < t.toNat + 1_000_000_000)

/-- Whether the wait of a FENCE reset is over with requests of the partition still outstanding: 10 ms have passed (R415). -/
def State.edgeLate (s : State) (p : Nat) : Bool :=
  let y := s.part p
  s.pstate p == psResetting && y.edgeWait && s.net.requests.any (·.part == p) && decide (y.resetAt.toNat + edgeLimit ≤ s.uptime)

/-- The requests that a FENCE reset's wait leaves are treated as in TAG mode, and the Scribe records it (R415). -/
def tagLate (s : State) (p : Nat) : State := (tagRequests s p).note (some p) .edgeTagged [p]

/-- RESET_DONE: a partition reset ends, once its outstanding requests are settled or 10 ms have passed in FENCE mode, and its generation has
not been current for a second (R415, R417, R418). -/
def execResetDone (p : Fin 8) (s : State) : Host.Outcome State Fault Refusal :=
  let y := s.part p
  let left := y.edgeWait && s.net.requests.any (·.part == p.val)
  .next (
    if s.pstate p ≠ psResetting ∨ !s.serving ∨ s.pins.departed ∨ genRecent s p ∨ reconcileWaits s p then s
    else if !left then endReset s p
    else if s.edgeLate p then endReset (tagLate s p) p
    else s)

/-! ## Shoring and leaving it (R316, R359) -/

/-- Reasons leave PART_SHORE_WHY of a SHORED partition. -/
def clearWhy (s : State) (p reasons : Nat) : State :=
  if s.pstate p = psShored then tryReturn (s.setWhy p (s.why p - (s.why p &&& reasons))) p else s

/-- A partition drains for no reason any more. -/
def State.stopDrain (s : State) (p : Nat) : State := s.setPart p { s.part p with drain := 0 }

/-- SHORE: PT_CMD 3 drains a partition and shores it for REQUEST (R316). -/
def execShore (n : Fin 4) (s : State) : Host.Outcome State Fault Refusal :=
  .next (ptCmd n (.shore n) s [psReduced, psReady, psShored] fun p s =>
    if s.pstate p = psShored then (s.setWhy p (s.why p ||| whyRequest)).setResult p n ptDone
    else startDrain (s.setResult p n ptRunning) p whyRequest)

/-- UNSHORE: PT_CMD 4 clears REQUEST, HOST and RESET, also of a lost host whose last completion is still to be written (R316). -/
def execUnshore (n : Fin 4) (s : State) : Host.Outcome State Fault Refusal :=
  .next (ptCmd n (.unshore n) s [psShored] fun p s =>
    clearWhy ((s.setResult p n ptDone).stopDrain p) p (whyRequest + whyHost + whyReset))

/-- REMOVE: PT_CMD 5 releases a partition; it is DONE once the partition is ABSENT (R316, R425). -/
def execRemove (n : Fin 4) (s : State) : Host.Outcome State Fault Refusal :=
  .next (ptCmd n (.remove n) s [psReduced, psReady, psShored] fun p s => release (s.setResult p n ptRunning) p)

end Sys2Proof.Machine
end

