-- ==== Sys2Proof/Machine/Boot.lean ====
section
/-! DEFINITION. Starting and stopping the module: the Scribe's and the key engine's part in a start (R395, R396, R460, R466),
image checks (R371, R372), the ROM's selection (R383, R387 to R391), the runtime's start (R373, R427), resets (R407, R426 to R428,
R444, R456, R485, R486), restarts of the management core (R374 to R379) and log rings (R380, R381). -/

namespace Sys2Proof.Machine

/-! ## The Scribe (R460, R463, R464, R466) -/

/-- Whether some privileged entry is not in module flash as the areas hold it (R466). -/
def Scribe.unsaved (x : Scribe) : Bool := decide (x.first ≠ x.flashFirst) || decide (x.last ≠ x.flashLast)

/-- Every privileged entry that is not yet there is written to module flash, and with them SCR_SEQ_NEXT; with none, nothing is (R466). The CTRL cycle of
the entries is over: they keep their sequences. -/
def flushScribe (s : State) : State :=
  let x := { s.scribe with posted := [] }
  { s with scribe :=
      if x.unsaved then
        { x with flashSeq := BitVec.ofNat 32 (s.getN Obj.scrSeqNext 0), flashFirst := x.first, flashLast := x.last }
      else x }

/-- The recorder after a warm or cold reset: privileged areas from flash, the general area empty, buckets full (R464, R466). -/
def Scribe.reload (x : Scribe) : Scribe :=
  { first := x.flashFirst, last := x.flashLast, flashSeq := x.flashSeq, flashFirst := x.flashFirst, flashLast := x.flashLast }

/-- A new boot: SCR_BOOTS advances, SCR_SEQ_NEXT skips ahead of the value last persisted, and START is recorded, of a CTRL cycle of its own (R460). -/
def scribeBoot (s : State) : State :=
  let s := { s with scribe := { s.scribe with posted := [] } }
  let s := (s.count Obj.scrBoots 0 16).setN Obj.scrSeqNext 0 ((s.scribe.flashSeq.toNat + 65536) % 2 ^ 32)
  s.record 0x2000 ([s.getN Obj.scrBoots 0, s.pins.lastOff] ++ twoWords s.now)

/-- TOKEN_REFILL: a code's bucket that is below full gains a token (R464). -/
def execTokenRefill (code : Half) (s : State) : Host.Outcome State Fault Refusal :=
  .next (if s.tokens code.toNat < s.rate code.toNat then s.setTokens code.toNat (s.tokens code.toNat + 1) else s)

/-- STAMP_MARK: a mark with the rack time goes into each last area (R463); no recorder runs in reset. -/
def execStampMark (s : State) : Host.Outcome State Fault Refusal :=
  .next (if s.pins.inReset then s else [0x1001, 0x2001, 0x3001, 0x4001].foldl (fun s c => s.record c (twoWords s.now)) s)

/-- SCRIBE_FLUSH: new privileged entries are persisted, a departure's last ones among them; no recorder runs in reset (R428, R466). -/
def execScribeFlush (s : State) : Host.Outcome State Fault Refusal :=
  .next (if s.pins.inReset then s else { flushScribe s with pins := { s.pins with departAt := none } })

/-! ## The fused limits (R2, R355) -/

/-- FUSE_ARITH_MAX, MHz. -/
def Fuses.arith (f : Fuses) : Nat :=
  match f.variant with
  | 1 => 2200
  | 2 => 2000
  | 3 => 1700
  | _ => 0

/-- FUSE_POWER_MAX, W. -/
def Fuses.watts (f : Fuses) : Nat :=
  match f.variant with
  | 1 => 1250
  | 2 => 1050
  | 3 => 800
  | _ => 0

/-! ## The power limit (R445, R446, R451) -/

/-- The bits of some flags. -/
def flagBits (fs : List (Nat × Bool)) : Nat := (fs.filter (·.2)).foldl (fun m f => setBit m f.1 true) 0

/-- The inlet limit: FUSE_POWER_MAX × (1 − 0.1 × (inlet − 40 °C)), in W (R451). -/
def State.inletWatts (s : State) : Nat := (s.fuses.watts * (6400 - s.power.inlet) / 1280).toNat

/-- The terms of the power limit, each with its bit in PWR_LIMIT_WHY; a cap that was never written is the fused limit (R445, R458). -/
def State.powerTerms (s : State) : List (Nat × Nat) :=
  [(0, s.fuses.watts)] ++ (if s.getN Obj.pwrCap 0 = 0 then [] else [(1, s.getN Obj.pwrCap 0)]) ++
    (if s.power.flowOn then [(2, s.fuses.watts * s.power.flow / 1050)] else []) ++
    (if s.power.inletOn then [(3, s.inletWatts)] else [])

/-- PWR_LIMIT and PWR_LIMIT_WHY follow the terms (R445). -/
def settleLimit (s : State) : State :=
  let w := (s.powerTerms.map (·.2)).foldl min s.fuses.watts
  (s.setN Obj.pwrLimit 0 w).setN Obj.pwrLimitWhy 0 (flagBits (s.powerTerms.map fun x => (x.1, x.2 == w)))

/-! ## The key engine (R395, R396) -/

/-- The floor F: leaves below it may have been used (R396). -/
def Sec.floor (x : Sec) : Nat := x.floorBits * 2 ^ 32

/-- The reserved top T of the valid copy with the higher sequence number (R395). -/
def Sec.top (x : Sec) : Option Nat :=
  match x.copyA, x.copyB with
  | some a, some b => some (if a.2 < b.2 then b.1 else a.1)
  | some a, none => some a.1
  | none, some b => some b.1
  | none, none => none

/-- A block reserved above top `t`: the next floor bit is blown where the new top would pass the floor, then the older copy is
written, then the other (R395, R396). Nothing lies above the last leaf. -/
def Sec.reserve (x : Sec) (t : Nat) : Sec :=
  let t' := t + 1024
  if 2 ^ 40 < t' then x
  else
    let x := if x.floor < t' then { x with floorBits := x.floorBits + 1 } else x
    let seq (c : Option (Nat × Nat)) : Nat := (c.map (·.2)).getD 0
    let q := max (seq x.copyA) (seq x.copyB) + 1
    if seq x.copyA ≤ seq x.copyB then { x with copyA := some (t', q), copyB := some (t', q + 1) }
    else { x with copyB := some (t', q), copyA := some (t', q + 1) }

/-- The first fall of SEC_IDX_LEFT below 2^32 is recorded (R397). -/
def noteLow (s : State) : State :=
  if !s.sec.lowNoted ∧ 2 ^ 40 - s.sec.next < 2 ^ 32 then
    { s with sec := { s.sec with lowNoted := true } }.record 0x1014 [1]
  else s

/-- The key engine at the first start of the runtime image after a warm or cold reset: it resumes at the reserved top, or at the floor where
no copy is valid, and reserves a block, whose tree is not built yet (R395). -/
def keyStart (s : State) : State :=
  let x := { s.sec with treeBuilt := false, signing := none, lastQuote := none }
  let s := match x.top with
    | some t => { s with sec := { x with next := t } }
    | none => { s with sec := { x with next := x.floor } }.record 0x1014 [0]
  noteLow { s with sec := s.sec.reserve s.sec.next }

/-! ## Images (R371, R372, R398) -/

/-- An image's version. -/
def imgVersion (bs : Bytes) : Nat := field bs 0x08 4
/-- Its rollback level. -/
def imgLevel (bs : Bytes) : Nat := field bs 0x0C 1
/-- Its root slot. -/
def imgSlot (bs : Bytes) : Nat := field bs 0x0D 1
/-- The settings format of a boot image. -/
def imgFormat (bs : Bytes) : Nat := field bs 0x0E 2
/-- The body length. -/
def imgBody (bs : Bytes) : Nat := field bs 0x10 4
/-- The interface version. -/
def imgInterface (bs : Bytes) : Nat := field bs 0x14 2
/-- The low and high words of the build identifier. -/
def imgBuild (bs : Bytes) : List Nat := [field bs 0x38 4, field bs 0x3C 4]

/-- Step 1: magic, format, kind, header size, version, rollback level, settings format, reserved fields, lengths and padding; `kind` is
1 boot or 2 runtime (R371, R390). -/
def imageForm (kind : Nat) (bs : Bytes) : Bool :=
  let used := 128 + imgBody bs + 2820
  imgVersion bs != 0 && decide (imgLevel bs ≤ 64) && (kind == 1 || imgFormat bs == 0) && zeros bs used (bs.length - used) &&
  field bs 0 4 == (if kind = 1 then 0x5442_4A4B else 0x5452_4A4B) && field bs 4 1 == 1 && field bs 5 1 == kind &&
    field bs 6 2 == 128 && zeros bs 0x16 2 && zeros bs 0x40 64 && imgBody bs % 16 == 0 &&
    decide (imgBody bs ≤ (if kind = 1 then 4 else 32) * 2 ^ 20 - 2960) && bs.length == roundUp used 16

/-- The vendor image root of a slot: 68 bytes, from ROM (R398, R406). -/
def imageRootOf (slot : Nat) : Bytes := padTo 68 (Config.imageRoot slot)

/-- Step 3: the signature verifies under the named vendor root, which is not revoked (R372, R398). -/
def imageSigned (s : State) (bs : Bytes) : Bool :=
  decide (imgSlot bs < 4) && !bit (s.getN Obj.secImgRevoked 0) (imgSlot bs) &&
    Config.xmssVerify (imageRootOf (imgSlot bs)) (bs.take 128) (sub bs (128 + imgBody bs) 2820)

/-- The step of R372 at which an image fails its check, if any. -/
def imageFails (s : State) (kind : Nat) (bs : Bytes) : Option Nat :=
  if !imageForm kind bs then some 1
  else if Config.shake256 (sub bs 128 (imgBody bs)) ≠ sub bs 0x18 32 then some 2
  else if !imageSigned s bs then some 3
  else if imgLevel bs < s.fuses.rollback then some 4
  else none

/-! ## The update state (R383) -/

/-- NONE of FW_UPD_STATE. -/
abbrev usNone : Nat := 0
/-- RECEIVING. -/
abbrev usReceiving : Nat := 1
/-- APPLYING. -/
abbrev usApplying : Nat := 2
/-- PENDING. -/
abbrev usPending : Nat := 3
/-- TRIAL. -/
abbrev usTrial : Nat := 4
/-- FAILED. -/
abbrev usFailed : Nat := 5

/-- FW_UPD_STATE. -/
def State.updState (s : State) : Nat := s.getN Obj.fwUpdState 0
/-- What a bank holds. -/
def Fw.bank (f : Fw) (b : Nat) : Option ImageBytes := if b = 0 then f.bankA else f.bankB
/-- The management core with a bank's contents replaced. -/
def Fw.setBank (f : Fw) (b : Nat) (x : Option ImageBytes) : Fw := if b = 0 then { f with bankA := x } else { f with bankB := x }

/-- An update transfer ends: its bank is erased, and the state becomes `st` (R375, R384, R386). -/
def dropUpdate (s : State) (st : Nat) : State :=
  { s with fw := { s.fw.setBank s.fw.candidate none with update := none } }.setN Obj.fwUpdState 0 st

/-! ## The settings store (R387) -/

/-- Whether an object's value lies in the settings store: kept across a cold reset and writable, outside the security blocks. -/
def stored (k : Nat) : Bool :=
  decide (k / 256 < 0x8000) && (match objRow (k / 256) (k % 256) with
    | some r => r.cold && r.access == .rws
    | none => false)

/-- A candidate's first boot: it works on a copy of the confirmed settings. -/
def beginTrial (s : State) : State :=
  if s.fw.confirmed.isSome then s
  else { s with fw := { s.fw with confirmed := some (s.objs.filter fun e => stored e.1), trialWrites := 0 } }

/-- Fall-back: the candidate's copy is discarded, and the writes that it alone had are lost and recorded. -/
def fallBack (s : State) : State :=
  match s.fw.confirmed with
  | none => s
  | some m =>
    let n := s.fw.trialWrites
    let s := { s with objs := s.objs.filter (fun e => !stored e.1), fw := { s.fw with confirmed := none, trialWrites := 0 } }
    (m.foldl (fun s (k, v) => s.setObj (k / 256) (k % 256) v) s).note none .writesLost [n]

/-! ## The ROM (R389, R391) -/

/-- Recovery mode begins (R391). -/
def recover (s : State) : State := { s with fw := { s.fw with image := .recovery, starting := none } }

/-- The boot image `bs` runs and serves; its build identifier is recorded (R347, R371). -/
def serveBoot (s : State) (bs : ImageBytes) : State :=
  let s := { s with fw := { s.fw with image := .boot, boot := some bs, starting := none } }
  ((s.setN Obj.fwBootRun 0 (imgVersion bs)).setN Obj.fwSettingsFmt 0 (imgFormat bs)).note none .imageStart (imgBuild bs)

/-- The ROM starts the image of a bank, which serves or leaves its 2 s to run. -/
def startBank (s : State) (b : Nat) (serves : Bool) : State :=
  if serves then serveBoot s ((s.fw.bank b).getD []) else { s with fw := { s.fw with starting := some b } }

/-- The candidate failed: the Scribe records the fall-back (R389). -/
def candidateFails (s : State) (why : Nat) : State :=
  let b := s.fw.candidate
  (s.setN Obj.fwUpdState 0 usFailed).record 0x1012 [b, imgVersion ((s.fw.bank b).getD []), Config.fallbackReason why]

/-- Whether a bank holds an image that passes steps 1 to 4 of R372. -/
def bankGood (s : State) (b : Nat) : Bool :=
  match s.fw.bank b with
  | some bs => (imageFails s 1 bs).isNone
  | none => false

/-- The ROM boots the confirmed image, or enters recovery mode (R389). -/
def bootConfirmed (s : State) (serves : Bool) : State :=
  let b := s.getN Obj.fwConfirmedBank 0
  if bankGood s b then startBank (fallBack s) b serves else recover s

/-- The ROM's selection (R386, R389); a candidate that boots for the first time starts from the confirmed settings, whatever an earlier
candidate left (R387). `cand` and `conf` say whether the image that it boots marks itself serving within 2 s. -/
def romSelect (s : State) (cand conf : Bool) : State :=
  let s := if s.updState = usReceiving ∨ s.updState = usApplying then dropUpdate s usNone else s
  if s.getN Obj.fwRecover 0 = 1 then recover (s.setN Obj.fwRecover 0 0)
  else
    let storm := s.fw.stormBefore
    let s := { s with fw := { s.fw with stormBefore := false } }
    let s := if !storm then s
      else if s.updState = usTrial then candidateFails s 0
      else s.count Obj.fwBootFails 0 8
    if s.getN Obj.fwBootFails 0 = 3 then recover ((s.setN Obj.fwBootFails 0 0).note none .recovery [])
    else if s.updState = usPending ∨ s.updState = usTrial then
      if s.getN Obj.fwTrials 0 = 3 then bootConfirmed (candidateFails s 1) conf
      else if !bankGood s s.fw.candidate then bootConfirmed (candidateFails s 2) conf
      else
        let s := if s.updState = usPending then fallBack s else s
        let s := beginTrial ((s.count Obj.fwTrials 0 8).setN Obj.fwUpdState 0 usTrial)
        startBank s s.fw.candidate cand
    else bootConfirmed s conf

/-- ROM_START: the ROM starts after a reset and selects the candidate, the confirmed image or recovery mode (R389). -/
def execRomStart (candidateServes confirmedServes : Bool) (s : State) : Host.Outcome State Fault Refusal :=
  .next (
    if s.fw.image ≠ .rom ∨ s.fw.starting.isSome ∨ s.pins.departed then s
    else romSelect s candidateServes confirmedServes)

/-- BOOT_WATCHDOG: the image that the ROM started has not marked itself serving within 2 s. A candidate has failed, and the ROM
selects again; the confirmed image leads to recovery mode (R389). -/
def execBootWatchdog (s : State) : Host.Outcome State Fault Refusal :=
  .next (match s.fw.starting with
    | none => s
    | some b =>
      let s := { s with fw := { s.fw with starting := none } }
      if s.updState = usTrial ∧ b = s.fw.candidate then candidateFails s 3 else recover s)

/-! ## Addresses of the management port (R328, R329) -/

/-- The first link-local address: the modified EUI-64 of the MAC address 0x02, serial [39:0] (R328, R329). -/
def State.firstAddr (s : State) : BitVec 128 :=
  let n := s.fuses.serial.toNat % 2 ^ 40
  BitVec.ofNat 128 (0xFE80 * 2 ^ 112 + n / 2 ^ 24 * 2 ^ 40 + 0xFFFE * 2 ^ 24 + n % 2 ^ 24)

/-- The second link-local address, fe80::4b4a:0:0:n for PLCA node n (R329). -/
def State.secondAddr (s : State) : BitVec 128 :=
  BitVec.ofNat 128 (0xFE80 * 2 ^ 112 + 0x4B4A * 2 ^ 48 + s.pins.straps.node.toNat)

/-- An address's 16 bytes, most significant first. -/
def addrBytes (a : BitVec 128) : Bytes := (leBytes 16 a.toNat).reverse

/-- Duplicate Address Detection as the management port comes up: one solicitation for each of the two addresses, where a node strap enables
the port (R329, R484; log 136). -/
def detectDuplicates (s : State) : State :=
  if s.pins.straps.node = 0 then s else (s.send (.solicit s.firstAddr)).send (.solicit s.secondAddr)

/-! ## The runtime image (R348, R373, R377, R427, R460) -/

/-- The ports that own a partition that is not ABSENT are LOST when the runtime starts after a warm reset (R427). -/
def losePorts (s : State) : State :=
  upTo 4 (fun n s => if (List.range 8).any (fun p => s.owner p == some n && s.pstate p != psAbsent) then hostLost s n else s) s

/-- The first start of the runtime image after a reset: a new boot of the Scribe with the trip that the controller latched, the key engine's
start, the management port's addresses, and the ports lost (R329, R395, R427, R456, R460). -/
def firstStart (s : State) : State :=
  let s := detectDuplicates (keyStart (scribeBoot { s with fw := { s.fw with began := true } }))
  let s := match s.pins.trip with
    | some (spot, diode) => { s with pins := { s.pins with trip := none } }.record 0x4014 [spot, diode]
    | none => s
  if s.raising.cold then s else losePorts s

/-- The runtime image starts: it takes up a held state, or serves as FIRMWARE, and its build identifier is recorded (R350, R371, R373,
R377, R389). -/
def startRuntime (s : State) (bs : Bytes) : State :=
  let service := s.fw.service.getD (max 1 (s.getR 0 Reg.rsService))
  let s := { s with fw := { s.fw with image := .runtime, held := some bs, runs := bs, coming := [], loadedSince := true, service := none } }
  let s := ((s.setN Obj.fwRtVer 0 (imgVersion bs)).setN Obj.fwUcodeVer 0 (Config.ucodeVersion bs % 2 ^ 32)).setN Obj.fwBootFails 0 0
  let s := (s.setR 0 Reg.rsService service).note none .imageStart (imgBuild bs)
  if s.fw.began then s else firstStart s

/-! ## Resets of the module (R407, R426 to R428, R444, R456, R485) -/

/-- The objects whose row keeps a test. -/
def keepObjs (keep : ObjRow → Bool) (m : Map Val) : Map Val :=
  m.filter fun e => match objRow (e.1 / 256) (e.1 % 256) with
    | some r => keep r
    | none => false

/-- The registers whose row keeps a test. -/
def keepRegs (keep : RegRow → Bool) (m : Map Nat) : Map Nat :=
  m.filter fun e => match regRow (e.1 % 0x1_0000) with
    | some r => keep r
    | none => false

/-- Partitions that have been formed: they have extents, contexts and bays. -/
def State.formed (s : State) (p : Nat) : Bool := s.pstate p != psAbsent && s.pstate p != psRaising

/-- Every partition stops as in the Stop phase of R418 (R426, R428). -/
def stopAll (s : State) : State := upTo 8 (fun p s => if s.formed p then stopPart s p else s) s

/-- Completions that are due, the ABORTED ones of stopped commands among them, are written as far as their queues have room (R426, R428). -/
def writeAborted (s : State) : State := upTo 8 (fun p s => if s.formed p then (s.queuesOf p).foldl writeDue s else s) s

/-- What a warm reset leaves of a partition: SHORED with RESET set, its layout, contexts and grammars, a new generation, JOB_WAIT set and
no job; a partition that was RAISING, or that was being released, is ABSENT (R417, R420, R425, R427). Its bays' CORE_PY, CORE_PK and CORE_PART are at
their defaults, as R86's column has them, until the firmware sets them again (DESIGN CHOICE, log 175). -/
def warmPart (s : State) (p : Nat) : State :=
  let y := s.part p
  let s := (advanceGen s p).setN Obj.jobWait (p + 1) 1
  if y.releasing then freePart s p
  else if s.formed p then
    let s := calmCtxs s p
    let s := ((s.setWhy p (s.why p ||| y.drain ||| y.after ||| whyReset)).setPstate p psShored).setN Obj.partResetWhy (p + 1) 3
    s.setPart p { extents := y.extents, pool := y.pool, ring := y.ring, rotor := y.rotor, grammars := y.grammars, epochs := y.epochs, gens := (s.part p).gens }
  else (s.setPstate p psAbsent).setPart p { epochs := y.epochs, gens := (s.part p).gens }

/-- The fused memory grade, in MT/s (R169, R353). -/
def Fuses.grades (f : Fuses) : Nat :=
  match f.grade with
  | 1 => 8533
  | 2 => 9600
  | 3 => 10667
  | _ => 0

/-- Defaults that follow from the fuses: MEM_GRADE_SET is the fused grade, PWR_LIMIT is FUSE_POWER_MAX (R204, R458). -/
def fuseDefaults (s : State) : State := (s.setN Obj.memGradeSet 2 s.fuses.grades).setN Obj.pwrLimit 0 s.fuses.watts

/-- The die is reset: what R407 keeps stays, and everything else is as after reset; the terms of the power limit that still hold make PWR_LIMIT,
and the ROM starts (R407, R426, R445; log 135). -/
def dieReset (s : State) (storm : Bool) : State :=
  settleLimit
  { pending := s.pending, free := s.free, sent := s.sent
    objs := keepObjs (·.warm) s.objs, regs := keepRegs (·.warm) s.regs
    mem := s.mem, bad := s.bad, tiers := s.tiers, scrubExt := s.scrubExt, scrubbed := s.scrubbed, parts := s.parts
    ctxs := s.ctxs.map fun e => (e.1, { e.2 with spill := none })
    ports := s.ports.map fun e => (e.1, {
      bme := e.2.bme, barSize := e.2.barSize, timeHi := e.2.timeHi, lanes := e.2.lanes, rate := e.2.rate, unmasked := e.2.unmasked
      msix := e.2.msix, pba := e.2.pba })
    mcs := s.mcs.map fun e => (e.1, { scrub := e.2.scrub })
    scribe := s.scribe.reload
    raising := { cold := false, record := s.raising.record, hottest := s.raising.hottest, tested := s.raising.tested
                 repairs := s.raising.repairs, retired := s.raising.retired, soft := s.raising.soft, started := s.clock.up }
    fw := { image := .rom, bankA := s.fw.bankA, bankB := s.fw.bankB, candidate := s.fw.candidate, confirmed := s.fw.confirmed
            trialWrites := s.fw.trialWrites, stormBefore := storm && !s.fw.loadedSince }
    sec := { copyA := s.sec.copyA, copyB := s.sec.copyB, floorBits := s.sec.floorBits, lowNoted := s.sec.lowNoted }
    power := { s.power with powerM := 256, thermalM := 256, coolFor := 0, resting := false }
    clock := { s.clock with setTo := none }
    pins := { s.pins with departed := false, departAt := none }
    fuses := s.fuses }

/-- A partition's job epoch ends: it is remembered for 1 s (R421). -/
def retireEpoch (s : State) (p : Nat) : State :=
  let y := s.part p
  let recent := y.epochs.filter fun e => decide (s.uptime < e.2.toNat + 1_000_000_000)
  s.setPart p { y with epochs := (s.getN Obj.jobEpoch (p + 1), s.clock.up) :: recent }

/-- A warm reset, for the reason `why` of FW_WARM_WHY (R426, R427). -/
def warmReset (s : State) (why : Nat) : State :=
  let s := upTo 8 (fun p s => retireEpoch s p) (writeAborted (sendDeparts (stopAll s)))
  let s := ((s.setN Obj.fwWarmWhy 0 why).count Obj.fwWarms 0).record 0x2011 [why]
  let s := dieReset (flushScribe (s.record 0x2014 [2])) (why == 2)
  upTo 8 (fun p s => warmPart s p) s

/-- Every rail is off, for the reason `why` of PWR_LAST_OFF: only module flash, fuses, the key store and the values kept across a
cold reset remain, and what the wake and brace inputs are at, and the module waits to start (R407, R444, R494). SCR_SEQ_NEXT keeps its value, and
entries before the runtime's first start go on from it (R468; DEDUCED, log 164). The training record goes, for a cold reset invalidates it for the fast
path (R365); RAISE_STORED keeps its value, as its column has it (R11, R369; DEDUCED, log 174). -/
def powerOff (s : State) (why : Nat) : State :=
  fuseDefaults {
    pending := s.pending, free := s.free, sent := s.sent
    objs := keepObjs (·.cold) s.objs
    scribe := s.scribe.reload
    raising := { repairs := s.raising.repairs, retired := s.raising.retired, soft := s.raising.soft }
    fw := { bankA := s.fw.bankA, bankB := s.fw.bankB, candidate := s.fw.candidate, confirmed := s.fw.confirmed
            trialWrites := s.fw.trialWrites }
    sec := { copyA := s.sec.copyA, copyB := s.sec.copyB, floorBits := s.sec.floorBits, lowNoted := s.sec.lowNoted }
    power := { braceIn := s.power.braceIn, braceHalf := s.power.braceIn }
    pins := { wake := s.pins.wake, latch := s.pins.latch, tripHeld := s.pins.tripHeld, trip := s.pins.trip, lastOff := why }
    fuses := s.fuses }

/-- The departure sequence, for the cause that DEPART records, up to the flush of the Scribe, which follows by SCRIBE_FLUSH or 3 ms after the start
(R428, R494; DESIGN CHOICE, log 196). It runs once. -/
def depart (s : State) (cause : Nat) : State :=
  if s.pins.departed then s
  else
    let s := writeAborted (sendDeparts (stopAll { s with pins := { s.pins with departed := true, departAt := some s.clock.up } }))
    s.record 0x2014 [cause]

/-- A departure that began 3 ms ago has flushed the Scribe (R428). -/
def endDeparture (s : State) : State :=
  match s.pins.departAt with
  | some t => if t.toNat + 3_000_000 ≤ s.uptime then { flushScribe s with pins := { s.pins with departAt := none } } else s
  | none => s

/-- LATCH_OPEN: the tray latch opens (R428, R494). -/
def execLatchOpen (s : State) : Host.Outcome State Fault Refusal :=
  let s' := { s with pins := { s.pins with latch := false } }
  .next (if s.pins.inReset then s' else depart s' 0)

/-- RESET_N: every rail goes off at once, with no flush (R485). -/
def execResetN (s : State) : Host.Outcome State Fault Refusal := .next (if s.pins.inReset then s else powerOff s 3)

/-- INPUT_LOST: the input is lost, and nothing more is flushed (R444). -/
def execInputLost (s : State) : Host.Outcome State Fault Refusal := .next (if s.pins.inReset then s else powerOff s 3)

/-- PRSNT_N_BREAK: PRSNT_N breaks with LATCH_N still asserted, which is a loss of input (R494). -/
def execPrsntNBreak (s : State) : Host.Outcome State Fault Refusal :=
  .next (if s.pins.inReset then s else powerOff { s with pins := { s.pins with latch := true } } 3)

/-- WAKE: WAKE_N is asserted, which allows the module to start. It clears a trip that is held where WAKE_N has been deasserted for at least 10 ms
before, as the attempt to start shows that the tray makes meanwhile (R485, R486; DESIGN CHOICE, log 165). -/
def execWake (s : State) : Host.Outcome State Fault Refusal :=
  .next { s with pins := { s.pins with wake := true, wakeOff := 0, tripHeld := s.pins.tripHeld && decide (s.pins.wakeOff < 10) } }

/-- Whether everything that a start needs is there: WAKE_N asserted, and every service (R12, R486). -/
def servicesPresent (w : Services) : Bool := w.mated && w.released && w.input && w.coolant && w.reference && w.wakeOff == 0

/-- The module in reset as the tray drives WAKE_N: one that is deasserted keeps it there, and how long it has been so is seen (R485, R486). -/
def seeWake (s : State) (w : Services) : State :=
  if w.wakeOff = 0 then s else { s with pins := { s.pins with wake := false, wakeOff := max s.pins.wakeOff w.wakeOff } }

/-- LEAVE_RESET: the module leaves reset at a cold start, samples its straps, records those it cannot use, and starts the ROM; defaults
that follow from straps and fuses are set. It needs WAKE_N asserted, no trip held, and every service; the latch is as LATCH_N then stands (R12, R13,
R303, R347, R484 to R486). -/
def execLeaveReset (w : Start) (s : State) : Host.Outcome State Fault Refusal :=
  let straps := w.straps
  .next (
    if !s.pins.inReset then s
    else if s.pins.tripHeld ∨ !s.pins.wake ∨ !servicesPresent w.services then seeWake s w.services
    else
      let s := { s with pins := { s.pins with inReset := false, straps, latch := w.services.latch }, fw := { s.fw with image := .rom } }
      let word := straps.coord.toNat + 2 ^ 8 * straps.node.toNat + 2 ^ 12 * straps.bifurcation.toNat
      let s := s.setN Obj.devStraps 0 word
      let s := upTo 4 (fun n s => s.setN Obj.hostQmax (n + 1) (4096 / max 1 s.portCount)) s
      let s := (fuseDefaults s).setN Obj.pwrBrace 0 (if s.power.braceHalf then 1 else 0)
      let s := if straps.node = 0 then s.record 0x0043 [0, word] else s
      if straps.bifurcation = 3 then s.record 0x0043 [1, word] else s)

/-! ## Restarts of the management core (R342, R344, R374 to R379) -/

/-- What a restart of the management core loses: objects and registers that the management complex does not keep, sessions, partial
writes and snapshots, an update that runs, and a mailbox request in progress (R375). -/
def loseWorking (s : State) : State :=
  let late := (List.range 4).filter fun n => bit (s.getR n Reg.mbStatus) 0
  let s := if s.updState = usReceiving ∨ s.updState = usApplying then dropUpdate s usNone else s
  let s := { s with
    objs := keepObjs (·.mgmt) s.objs, regs := keepRegs (·.mgmt) s.regs
    ports := s.ports.map fun e => (e.1, { e.2 with mbReq := [], mbRsp := [] })
    dict := { usedNonces := s.dict.usedNonces, secondGone := s.dict.secondGone }
    sec := { s.sec with signing := s.sec.signing.map fun x => (x.1, x.2.1, none) }
    fw := { s.fw with armed := none } }
  late.foldl (fun s n => s.setR n Reg.mbStatus 4) s

/-- The management core restarts for a cause of R374; the fourth restart within 60 s of the first is replaced by a warm reset (R374, R379). -/
def restartCore (s : State) (cause : Nat) : State :=
  if s.pins.inReset ∨ (s.fw.image ≠ .runtime ∧ s.fw.image ≠ .boot) then s
  else
    let storm : Bool := match s.fw.restarts with
      | t :: _ => s.fw.restarts.length == 3 && decide (s.uptime < t.toNat + 60_000_000_000)
      | [] => false
    if storm then warmReset s 2
    else
      let s := (s.count Obj.fwRestarts 0).setN Obj.fwRestartWhy 0 cause
      let old := s.fw.restarts
      loseWorking { s with fw := { s.fw with
        busy := true, hung := false, restarts := (if old.length < 3 then old else old.drop 1) ++ [s.clock.up] } }

/-- WATCHDOG_EXPIRE (R374). -/
def execWatchdogExpire (s : State) : Host.Outcome State Fault Refusal := .next (restartCore s 1)
/-- MGMT_MEMORY_ERROR (R374). -/
def execMgmtMemoryError (s : State) : Host.Outcome State Fault Refusal := .next (restartCore s 2)
/-- CONSISTENCY_CHECK_FAIL (R374). -/
def execConsistencyCheckFail (s : State) : Host.Outcome State Fault Refusal := .next (restartCore s 3)

/-! ## Log rings and hung stations (R380, R381, R412) -/

/-- LG_CTRL_START: the ring starts with its counts at 0, where LG_BASE and LG_SIZE allow it; otherwise the Scribe records it (R380, R381). -/
def execLgCtrlStart (n : Fin 4) (s : State) : Host.Outcome State Fault Refusal :=
  let base := s.getR n Reg.lgBase
  let size := s.getR n Reg.lgSize
  .next (
    s.emulated n (.lgCtrlStart n) fun s =>
    if !s.hears n Reg.lgCtrl then s
    else if base % 4096 ≠ 0 ∨ !((List.range 11).any fun i => size == 2 ^ (16 + i)) then s.record 0x0051 [n, base % 2 ^ 32, size]
    else ((s.setPort n { s.port n with logging := true }).setR n Reg.lgHead 0).setR n Reg.lgTail 0)

/-- LG_CTRL_STOP: the ring stops (R380). -/
def execLgCtrlStop (n : Fin 4) (s : State) : Host.Outcome State Fault Refusal :=
  .next (s.emulated n (.lgCtrlStop n) fun s => if s.hears n Reg.lgCtrl then s.setPort n { s.port n with logging := false } else s)

/-- FABRIC_PROGRESS: a station with work pending has completed nothing for 200 ms; the firmware marks it hung and records it (R412). -/
def execFabricProgress (station : Fin 36) (s : State) : Host.Outcome State Fault Refusal :=
  .next (
    if !s.serving then s
    else (s.setN Obj.fwFabHung 0 (setBit (s.getN Obj.fwFabHung 0) station true)).note none .hung [station])

end Sys2Proof.Machine
end

