-- ==== Sys2Proof/Machine/Branch.lean ====
section
/-! DEFINITION. Branches and loops, group 0x2 (R101, R123, R127). -/

namespace Sys2Proof.Machine

/-- Whether the instruction at the PC is the last of an active loop's body (R123). -/
def Core.atLoopEnd (k : Core) : Bool := k.loops.any fun l => l.stop == k.pc

/-- Whether a target lies outside the body of the innermost active loop (R101, R123). -/
def Core.leavesLoop (k : Core) (t : Nat) : Bool :=
  match k.loops with
  | [] => false
  | l :: _ => t < l.start || l.stop < t

/-- A taken branch (R127). -/
def branch (t : Nat) (k : Core) : Issued :=
  .unless (lowest [(k.atLoopEnd || k.leavesLoop t, loopStructure)]) (.done { k with pc := t } 3)

/-- LOOP: push (PC + 1, end, count); a count of 0 skips the body (R101, R127). -/
def pushLoop (n stop : Nat) (k : Core) : Issued :=
  let outside := match k.loops with
    | [] => false
    | l :: _ => decide (l.stop < stop)
  .unless (lowest [(decide (4 ≤ k.loops.length), loopDepth),
      (k.atLoopEnd || decide (stop < k.pc + 1) || outside, loopStructure)])
    (if n = 0 then
      let (ls, pc) := backEdge stop k.loops
      .done { k with loops := ls, pc } 3
    else .done { k with loops := ⟨k.pc + 1, stop, n⟩ :: k.loops, pc := k.pc + 1 } 1)

/-- BR. -/
def execBr (x : AtCore) (f : Fields) (s : State) : Host.Outcome State Fault Refusal :=
  let c := x.core
  let s := s.strike c x.found
  .next (issue .br c f s (branch (bits f.imm.toNat 0 11)))
/-- BRI: ga[10:0]. -/
def execBri (x : AtCore) (f : Fields) (s : State) : Host.Outcome State Fault Refusal :=
  let c := x.core
  let s := s.strike c x.found
  .next (issue .bri c f s fun k => branch (bits (k.getG f.a).toNat 0 11) k)
/-- LOOP: the count is ga, or imm[31:16] where m[0] = 1; the end is imm[10:0]. -/
def execLoop (x : AtCore) (f : Fields) (s : State) : Host.Outcome State Fault Refusal :=
  let c := x.core
  let s := s.strike c x.found
  .next (issue .loop c f s fun k =>
    pushLoop (if f.m.getLsbD 0 then bits f.imm.toNat 16 16 else (k.getG f.a).toNat) (bits f.imm.toNat 0 11) k)
/-- BRK: pop the innermost loop and continue past its end. -/
def execBrk (x : AtCore) (f : Fields) (s : State) : Host.Outcome State Fault Refusal :=
  let c := x.core
  let s := s.strike c x.found
  .next (issue .brk c f s fun k =>
    match k.loops with
    | [] => .fault loopStructure 0
    | l :: rest =>
      if k.atLoopEnd then .fault loopStructure 0
      else
        let (ls, pc) := backEdge l.stop rest
        .done { k with loops := ls, pc } 3)

end Sys2Proof.Machine
end

