-- ==== Sys2Proof/Machine/Power.lean ====
section
/-! DEFINITION. Power and cooling (R434 to R458, R471, R485, R488): the shedding stages, the limits on ARITH and on input power, the
braces, coolant, temperature, and shoring for power or coolant (R443). -/

namespace Sys2Proof.Machine

/-! ## Measured values -/

/-- The FP32 nearest to a ratio. -/
def fp32Ratio (a : Int) (b : Nat) : Word := if a < 0 then ratio32 a.natAbs b ||| 0x8000_0000 else ratio32 a.natAbs b

/-- An object that holds a measured ratio in FP32. -/
def State.setRatio (s : State) (i sub : Nat) (a : Int) (b : Nat) : State := s.setN i sub (fp32Ratio a b).toNat

/-! ## ARITH (R440, R445, R447, R471) -/

/-- The limits on ARITH in force, as m of R471, each with its bit in PWR_ARITH_WHY (R358, R440, R458). -/
def State.arithLimits (s : State) : List (Nat × Nat) :=
  [(0, 256)] ++ (if s.service = 2 then [(1, 256 * 1100 / max 1 s.fuses.arith)] else []) ++
    (if 4 ≤ s.stage then [(2, 76)] else if s.stage = 3 then [(2, 153)] else []) ++
    (if s.power.powerM < 256 then [(3, s.power.powerM)] else []) ++
    (if s.power.thermalM < 256 then [(4, s.power.thermalM)] else []) ++ (if s.power.coolBrace then [(5, 32)] else [])

/-- The lowest limit. -/
def State.arithMin (s : State) : Nat := (s.arithLimits.map (·.2)).foldl min 256

/-- Whether the brace input or the overcurrent brace halves ARITH (R447, R448). -/
def State.halved (s : State) : Bool := s.power.braceHalf || s.power.braceOver

/-- The m that the limits and braces allow: never below the floor of 32 (R440, R471). -/
def State.arithTarget (s : State) : Nat :=
  let m := max 32 s.arithMin
  if s.halved then max 32 (m / 2) else m

/-- The gate takes a value of m; PWR_ARITH and PWR_ARITH_WHY follow, and PWR_BRACE (R440, R447, R471). -/
def setGate (s : State) (m : Nat) : State :=
  let why := flagBits ((s.arithLimits.map fun x => (x.1, x.2 == s.arithMin)) ++ [(6, s.halved)])
  (((s.setN Obj.clkGateM 0 m).setN Obj.pwrArith 0 (s.fuses.arith * m / 256)).setN Obj.pwrArithWhy 0 why).setN Obj.pwrBrace 0
    (flagBits [(0, s.power.braceHalf), (1, s.power.braceOver), (2, s.power.coolBrace)])

/-- ARITH follows a limit that falls at once; where the lowest limit rises, it waits for the slew (R440). -/
def settleArith (s : State) : State := setGate s (min (s.getN Obj.clkGateM 0) s.arithTarget)

/-- One slew step: ARITH rises by F/16, up to what the limits allow (R445). -/
def riseArith (s : State) : State := setGate s (min (s.getN Obj.clkGateM 0 + 16) s.arithTarget)

/-! ## The power controller (R445, R446) -/

/-- A step of an ARITH limit downward or upward by F/16, between the floor and the maximum (R445, R471). -/
def slewM (m k : Nat) (down : Bool) : Nat := if down then max 32 (m - 16 * k) else min 256 (m + 16 * k)

/-- What the conversion controller has measured of the input voltage (R435). -/
def State.setVin (s : State) (millivolts : Nat) : State := s.setRatio Obj.pwrVin 0 millivolts 1000

/-- What it has measured of the input power (R435). -/
def State.setPin (s : State) (milliwatts : Nat) : State := s.setRatio Obj.pwrIn 0 milliwatts 1000

/-- Whether a brace, or stage 3 or above, holds ARITH below what the other limits give it (R441, R447, R448). -/
def State.powerHeld (s : State) : Bool := s.halved || decide (3 ≤ s.stage)

/-- The m to which ARITH rises once no brace and no stage holds it (R440, R447, R457). -/
def State.unheldM (s : State) : Nat := max 32 (((s.arithLimits.filter (·.1 != 2)).map (·.2)).foldl min 256)

/-- The firmware's ARITH limit after a control step at an input power: one step toward the power limit (R445). While a brace or a stage holds ARITH, it is
lowered as long as the power would be above the limit with ARITH at what the other limits give it, and is not raised, so that the release brings
no step above the cap (R447, R457; the power is taken to grow with ARITH, DESIGN CHOICE, log 201). -/
def State.controlM (s : State) (milliwatts : Nat) : Nat :=
  let limit := 1000 * s.getN Obj.pwrLimit 0
  let m := s.power.powerM
  if s.powerHeld then
    if limit * s.getN Obj.clkGateM 0 < milliwatts * s.unheldM then slewM m 1 true else m
  else if limit < milliwatts then slewM m 1 true
  else if milliwatts < limit then slewM m 1 false
  else m

/-- POWER_CONTROL: every 250 µs the firmware moves its ARITH limit one step toward the power limit, and ARITH rises by its slew; a power
above the limit with ARITH at its floor sets PWR_CAP_UNMET. PWR_IN and PWR_VIN report the measurements (R435, R445, R447). -/
def execPowerControl (v : InputPower) (s : State) : Host.Outcome State Fault Refusal :=
  let milliwatts := v.milliwatts
  let millivolts := v.millivolts
  .next (
    if s.pins.inReset then s
    else
      let s := (s.setPin milliwatts).setVin millivolts
      if !s.serving then riseArith s
      else
        let limit := s.getN Obj.pwrLimit 0
        let unmet := decide (1000 * limit < milliwatts) && decide (s.getN Obj.clkGateM 0 ≤ 32)
        let s :=
          if unmet ∧ s.getN Obj.pwrCapUnmet 0 = 0 then s.record 0x3012 [limit, milliwatts / 1000] else s
        let s := s.setN Obj.pwrCapUnmet 0 (if unmet then 1 else 0)
        riseArith { s with power := { s.power with powerM := s.controlM milliwatts } })

/-! ## Shoring for power or coolant (R316, R437, R443, R452) -/

/-- A partition's work stops: its STEP and its COPYs complete with ABORTED, and ACTIVE contexts become BOUND (R443). -/
def haltPart (s : State) (p : Nat) : State :=
  let s := stopStep s p [stAborted]
  let s := match (s.part p).step with
    | some r => endStep s p r
    | none => s
  let s := cancelColls (dropRows (cancelStreams ((s.baysOf p).foldl stopBay s) p) p) p
  (s.cmdsOf p).foldl (fun s (q, c) =>
    if c.copying then finish (spoilCopy s p c) q c.seq { status := stAborted } else s) s

/-- Bits of RAISE_CH_TRAINED set or cleared. -/
def setTrained (s : State) (us : List Nat) (v : Bool) : State :=
  s.setB Obj.raiseChTrained 0 (leBytes 24 (us.foldl (fun m u => setBit m u v) (leNat (s.getB Obj.raiseChTrained 0))))

/-- The channels that a training step trains. -/
def stepChannels (code : Nat) : List Nat := (List.range 96).map ((if code = 0x13 then 0 else 96) + ·)

/-- The work with which a raising step begins: training takes its channels from service, MEM_TRAIN_A at the grade that MEM_GRADE_SET now holds, and
LINK_TRAIN begins to train every link but one that a retrain has (R170, R171, R261, R362). -/
def beginWork (s : State) (code : Nat) : State :=
  match code with
  | 0x13 => setTrained { s with raising := { s.raising with grade := s.getN Obj.memGradeSet 2 } } (stepChannels 0x13) false
  | 0x16 => setTrained s (stepChannels 0x16) false
  | 0x17 => upTo 6 (fun l s => if (s.link l).retrain then s else startTraining s l) s
  | _ => s

/-- A raising step that stage 5 kept waiting begins once it is left, and its duration counts from then (R352, R442). -/
def wakeStep (s : State) : State :=
  match s.raising.running with
  | some (code, _) =>
    if s.raising.waits ∧ !s.dark then
      beginWork { s with raising := { s.raising with waits := false, stepAt := s.clock.up } } code
    else s
  | none => s

/-- A partition in service is shored for reasons: its work stops, and where that completes the last command of one that drains already, the drain has
shored or released it, and SHORED it has the reasons too (R316, R320, R443). -/
def shoreFor (s : State) (p reasons : Nat) : State :=
  let s := haltPart s p
  if s.inService p then shore s p reasons
  else if s.pstate p = psShored then s.setWhy p (s.freshWhy (s.why p))
  else s

/-- The firmware follows the input and the coolant: it takes or leaves stage 5's actions, shores every partition in service for the reasons that
hold, and takes away those of SHORED partitions that hold no longer; one that forms or resets meets them when that is done. A raising step that
waited for the end of stage 5 begins. During a restart of the management core it waits (R316, R437, R442 to R444, R451 to R453). -/
def settleShore (s : State) : State :=
  if !s.serving ∨ s.pins.departed then s
  else
    let s := wakeStep { s with power := { s.power with resting := s.dark } }
    let want := s.shoreReasons
    upTo 8 (fun p s =>
      if s.inService p then (if want = 0 then s else shoreFor s p want)
      else if s.pstate p = psShored ∨ (s.pstate p = psResetting ∧ (s.part p).prev = psShored) then
        (if s.freshWhy (s.why p) = s.why p then s else tryReturn (s.setWhy p (s.freshWhy (s.why p))) p)
      else s) s

/-! ## Shedding on sag (R436 to R444) -/

/-- Entry thresholds of stages 1 to 6, mV. -/
def stageEnter (n : Nat) : Nat := [0, 45_000, 44_000, 43_000, 41_500, 40_000, 38_000].getD n 0
/-- Exit thresholds of stages 1 to 5, mV. -/
def stageExit (n : Nat) : Nat := [0, 46_000, 45_000, 44_000, 42_500, 44_000].getD n 0

/-- What follows a change of stage: ARITH, shoring, and fetching (R437, R441). -/
def settleStage (s : State) : State :=
  let s := settleShore (settleArith s)
  if s.serving then fetchAll s else s

/-- STAGE_TAKEN: the input has stayed below the entry threshold of stage `n`, which is in force with the stages below it; stage 6 runs the
departure sequence, where that has not run, flushes the Scribe and turns every rail off (R436, R444, R466). -/
def execStageTaken (n : Fin 7) (millivolts : Nat) (s : State) : Host.Outcome State Fault Refusal :=
  .next (
    if s.pins.inReset ∨ n.val ≤ s.stage ∨ stageEnter n ≤ millivolts then s
    else
      let s := (s.record 0x3010 [s.stage, n, millivolts]).setVin millivolts
      if n = 6 then powerOff (flushScribe (depart s 1)) 1
      else settleStage (s.setN Obj.pwrStage 0 n))

/-- STAGE_LEFT: the input has stayed at or above the exit threshold of the highest stage in force (R436). -/
def execStageLeft (n : Fin 7) (millivolts : Nat) (s : State) : Host.Outcome State Fault Refusal :=
  .next (
    if s.pins.inReset ∨ n = 0 ∨ n.val ≠ s.stage ∨ millivolts < stageExit n then s
    else
      let s := (s.record 0x3010 [s.stage, n - 1, millivolts]).setVin millivolts
      settleStage (s.setN Obj.pwrStage 0 (n - 1)))

/-- OVERVOLTAGE: an input above 60 V shores as stage 5 does; above 63 V it runs stage 6 (R444). -/
def execOvervoltage (v : Overvoltage) (s : State) : Host.Outcome State Fault Refusal :=
  let stage6 := v.stage6
  let millivolts := v.millivolts
  .next (
    if s.pins.inReset ∨ millivolts ≤ (if stage6 then 63_000 else 60_000) then s
    else if stage6 then powerOff (flushScribe (depart (s.setVin millivolts) 1)) 4
    else settleShore { s.setVin millivolts with power := { s.power with overvolt := true } })

/-- OVERVOLTAGE_CLEAR: the input has been at or below 59 V for 1 s, and PWR_VIN then reports a measurement of at most 59 V: a free value
(R435, R444; DESIGN CHOICE, log 144). -/
def execOvervoltageClear (s : State) : Host.Outcome State Fault Refusal :=
  .next (
    if s.pins.inReset then s
    else
      let s := { s.setVin (Config.freeValue s.free % 59_001) with free := s.free + 1 }
      settleShore { s with power := { s.power with overvolt := false } })

/-! ## Braces (R447, R448) -/

/-- BRACE_ASSERT: the brace input is asserted and halves ARITH (R447); asserted in reset, it has ARITH start halved (R494; log 147). -/
def execBraceAssert (s : State) : Host.Outcome State Fault Refusal :=
  .next (
    if s.power.braceIn then s
    else
      let s := { s with power := { s.power with braceIn := true, braceHalf := true, braceAt := s.clock.up } }
      let s := s.count Obj.pwrBraces 0
      if s.pins.inReset then s else (settleArith s).record 0x3011 [0])

/-- BRACE_RELEASE: the brace input is released; the halving ends where 1 ms has passed since the assertion (R447). -/
def execBraceRelease (s : State) : Host.Outcome State Fault Refusal :=
  .next (
    if !s.power.braceIn then s
    else
      let held := decide (s.uptime < s.power.braceAt.toNat + 1_000_000)
      let s := { s with power := { s.power with braceIn := false, braceHalf := held } }
      if s.pins.inReset then s else settleArith s)

/-- BRACE_MINIMUM_HOLD_END: 1 ms has passed since the assertion of a brace input that was released before (R447). -/
def execBraceMinimumHoldEnd (s : State) : Host.Outcome State Fault Refusal :=
  .next (
    if s.power.braceIn then s
    else
      let s := { s with power := { s.power with braceHalf := false } }
      if s.pins.inReset then s else settleArith s)

/-- OVERCURRENT: input power above 1.2 × FUSE_POWER_MAX for 50 µs asserts the internal brace, and PWR_IN then reports a measurement above that: a
free value (R435, R448; DESIGN CHOICE, log 144). -/
def execOvercurrent (s : State) : Host.Outcome State Fault Refusal :=
  .next (
    if s.pins.inReset then s
    else
      let s := { s.setPin (1200 * s.fuses.watts + 1 + Config.freeValue s.free) with free := s.free + 1 }
      settleArith { s with power := { s.power with braceOver := true } })

/-- OVERCURRENT_RELEASE: after 1 ms the internal brace is released once input power, which PWR_IN then reports, is within FUSE_POWER_MAX, and
recorded (R435, R448). -/
def execOvercurrentRelease (milliwatts : Nat) (s : State) : Host.Outcome State Fault Refusal :=
  .next (
    if s.pins.inReset ∨ !s.power.braceOver ∨ 1000 * s.fuses.watts < milliwatts then s
    else (settleArith { s.setPin milliwatts with power := { s.power with braceOver := false } }).record 0x3011 [1])

/-! ## Coolant (R449 to R453, R488) -/

/-- COOL_STATE: 2 while the coolant brace holds, 1 while a flow or inlet limit applies (R451, R452). -/
def settleCool (s : State) : State :=
  (settleLimit s).setN Obj.coolState 0
    (if s.power.coolBrace then 2 else if s.power.flowOn || s.power.inletOn then 1 else 0)

/-- The flow readings of the last second with a new one: 100 at one every 10 ms (R449, R488). -/
def newFlows (s : State) (v : Nat) : List Nat := (v :: s.power.flows).take 100

/-- Whether a mean in whole mL/min is that of some readings, whichever way it is rounded (R449; DESIGN CHOICE, log 167). -/
def isMean (mean : Nat) (vs : List Nat) : Bool :=
  decide (mean * vs.length < vs.sum + vs.length) && decide (vs.sum < mean * vs.length + vs.length)

/-- SENSOR_READ: the sensor interface reads the three targets; a target that is silent keeps its value. `meanFlow` is the mean of the last
second's readings, in mL/min: a mean that is not theirs does not come about. A limit ends as soon as its condition does (R449, R451, R488). CLK_OVERRUN records the counts found overrun, those of the
PCIE ports among them (R478, R480; DESIGN CHOICE, log 146). -/
def execSensorRead (r : Sensors) (meanFlow : Nat) (s : State) : Host.Outcome State Fault Refusal :=
  let valid := r.flow.filter (!·.msb)
  let impossible : Bool := match valid with
    | some v => !isMean meanFlow (newFlows s v.toNat)
    | none => false
  .next (
    if s.pins.inReset ∨ impossible then s
    else
      let s := s.setN Obj.clkOverrun 0 (s.getN Obj.clkOverrun 0 ||| r.overruns.toNat * 2 ^ 6)
      let s := match r.inlet with
        | some v => { s with power := { s.power with inlet := v.toInt } }.setRatio Obj.coolInlet 0 v.toInt 128
        | none => s
      let s := match r.outlet with
        | some v => { s with power := { s.power with outlet := v.toInt } }.setRatio Obj.coolOutlet 0 v.toInt 128
        | none => s
      let s := match valid with
        | some v => { s with power := { s.power with flow := meanFlow, flows := newFlows s v.toNat } }.setRatio Obj.coolFlow 0 meanFlow 1000
        | none => s
      settleCool { s with power := { s.power with
        flowOn := s.power.flowOn && decide (s.power.flow < 1050), inletOn := s.power.inletOn && decide (5120 < s.power.inlet) } })

/-- FLOW_LOW: COOL_FLOW has stayed below 1.2 L/min for 1 s, which is recorded, or with `derate` has fallen below 1.05 L/min, which sets the
flow limit (R451). -/
def execFlowLow (derate : Bool) (s : State) : Host.Outcome State Fault Refusal :=
  .next (
    if s.pins.inReset ∨ (if derate then 1050 else 1200) ≤ s.power.flow then s
    else if derate then settleCool { s with power := { s.power with flowOn := true } }
    else s.record 0x4010 [s.power.flow])

/-- INLET_HIGH: the inlet has stayed above 40 °C for 10 s, which sets the inlet limit, or with `shoreAll` above 45 °C, which shores every
partition with COOLING (R451). -/
def execInletHigh (shoreAll : Bool) (s : State) : Host.Outcome State Fault Refusal :=
  .next (
    if s.pins.inReset ∨ s.power.inlet ≤ (if shoreAll then 5760 else 5120) then s
    else if shoreAll then settleShore { s with power := { s.power with coolInlet := true } }
    else settleCool { s with power := { s.power with inletOn := true } })

/-- INLET_CLEAR: the inlet has stayed below 43 °C for 10 s (R451). -/
def execInletClear (s : State) : Host.Outcome State Fault Refusal :=
  .next (
    if s.pins.inReset ∨ 5504 ≤ s.power.inlet then s
    else settleShore { s with power := { s.power with coolInlet := false } })

/-- A sudden stop: the coolant brace, and shoring with COOLING (R452). -/
def coolantStop (s : State) (rise : Bool) : State :=
  let s := { s with power := { s.power with coolBrace := true, coolStop := true } }.record 0x4011 [if rise then 1 else 0]
  settleShore (settleArith (settleCool s))

/-- COOLANT_STOP: flow stops, or the outlet rises too fast (R452). -/
def execCoolantStop (outletRise : Bool) (s : State) : Host.Outcome State Fault Refusal :=
  .next (if s.pins.inReset then s else coolantStop s outletRise)

/-- SENSOR_SILENT: a coolant sensor has not answered for 100 ms: without flow or outlet, flow counts as stopped; the inlet (0) is taken
as 40 °C, and recorded (R449). -/
def execSensorSilent (which : Fin 3) (s : State) : Host.Outcome State Fault Refusal :=
  .next (
    if s.pins.inReset then s
    else if which = 0 then (settleCool { s with power := { s.power with inlet := 5120, inletOn := false } }).note none .sensorSilent []
    else coolantStop s false)

/-- COOLANT_RECOVER: flow and outlet have been steady for 10 s; the coolant brace is released and COOLING cleared (R453). -/
def execCoolantRecover (s : State) : Host.Outcome State Fault Refusal :=
  .next (
    if s.pins.inReset ∨ s.power.flow < 1200 then s
    else settleShore (settleArith (settleCool { s with power := { s.power with coolBrace := false, coolStop := false } })))

/-- FLOW_FORECAST: the firmware forecasts input power and requests 1.5 L/min × clamp(1.25 × forecast / FUSE_POWER_MAX, 0.8, 1.0)
(R450). -/
def execFlowForecast (milliwatts : Nat) (s : State) : Host.Outcome State Fault Refusal :=
  let d := 4000 * s.fuses.watts
  let x := max (4 * d / 5) (min d (5 * milliwatts))
  .next (
    if !s.serving ∨ d = 0 then s
    else
      let q := fp32Ratio (3 * x : Nat) (2 * d)
      ((s.setN Obj.coolForecast 0 (milliwatts / 1000)).setN Obj.coolFlowReq 0 q.toNat).send (.flowRequest q))

/-! ## Temperature (R454 to R456) -/

/-- The spot of a diode: bays 0 to 63, then controller regions 64 to 87 (R458). -/
def spotOf (d : Nat) : Nat := if d < 128 then d / 2 else 64 + (d - 128) / 4
/-- The diodes of a spot. -/
def diodesOf (k : Nat) : List Nat := if k < 64 then [2 * k, 2 * k + 1] else (List.range 4).map (128 + 4 * (k - 64) + ·)
/-- The diodes that the firmware has discarded. -/
def State.discarded (s : State) (d : Nat) : Bool := bit (leNat (s.getB Obj.thermMask 0)) d
/-- Whether a spot's limit was lowered for diodes that disagree. -/
def State.degraded (s : State) (k : Nat) : Bool := bit (leNat (s.getB Obj.thermDegraded 0)) k
/-- Whether a spot has no valid diode. -/
def State.blind (s : State) (k : Nat) : Bool := (diodesOf k).all s.discarded

/-- A sample takes a diode's reading, in thousandths of a degree: an implausible one discards the diode, which is recorded (R455). -/
def takeReading (s : State) (d : Nat) (r : Int) : State :=
  let jump : Bool := match look none s.power.last d with
    | some q => decide (10_000 < (r - q).natAbs)
    | none => false
  if 224 ≤ d ∨ s.discarded d then s
  else if r < -40_000 ∨ 150_000 < r ∨ jump then
    (s.setB Obj.thermMask 0 (leBytes 28 (setBit (leNat (s.getB Obj.thermMask 0)) d true))).record 0x4013
      [spotOf d, d - (diodesOf (spotOf d)).headD 0, (word r).toNat]
  else { s with power := { s.power with last := put none s.power.last d (some r) } }

/-- The greatest of some readings. -/
def hottest : List Int → Option Int
  | [] => none
  | r :: rs => match hottest rs with
    | some q => some (max r q)
    | none => some r

/-- The reading of a spot with a valid diode: the highest of its valid diodes. -/
def State.ownReading (s : State) (k : Nat) : Option Int :=
  hottest ((diodesOf k).filterMap fun d => if s.discarded d then none else look none s.power.last d)

/-- The neighbouring spots of a spot: the bays next to a bay and the region attached to it; for a region, the bay of its attachment
and the regions next to it (R40, R455; DEDUCED, log 60). -/
def neighbours (k : Nat) : List Nat :=
  if k < 64 then
    (if 0 < bayX k then [k - 1] else []) ++ (if bayX k < 7 then [k + 1] else []) ++ (if 8 ≤ k then [k - 8] else []) ++
      (if k < 56 then [k + 8] else []) ++ ((List.range 24).filter (mcBay · == k)).map (64 + ·)
  else [mcBay (k - 64), 64 + (k - 64 + 23) % 24, 64 + (k - 64 + 1) % 24]

/-- A spot's reading (R455). -/
def State.reading (s : State) (k : Nat) : Option Int :=
  if s.blind k then (hottest ((neighbours k).filterMap s.ownReading)).map (· + 5_000) else s.ownReading k

/-- A spot's limit (R454, R455). -/
def State.limit (s : State) (k : Nat) : Int :=
  105_000 - (if s.degraded k then 5_000 else 0) - (if s.blind k then 5_000 else 0)

/-- THERMAL_SAMPLE: the firmware samples every spot; a diode by its bit of THERM_MASK, and the packages. Where a spot is above its limit, the
thermal limit falls by the slew of a millisecond; it rises so once the hottest spot has stayed 2 °C below its limit for 10 samples
(R454, R455, log 61). -/
def execThermalSample (diodes : List (Nat × Int)) (packages : List Int) (s : State) : Host.Outcome State Fault Refusal :=
  .next (
    if !s.serving then s
    else
      let s := diodes.foldl (fun s (d, r) => takeReading s d r) s
      let s := upTo 88 (fun k s => match s.reading k with
        | some r => if k < 64 then s.setRatio Obj.thermBay (k + 1) r 1000 else s.setRatio Obj.thermMc (k - 63) r 1000
        | none => s) s
      let margins := (List.range 88).filterMap fun k => (s.reading k).map (· - s.limit k)
      match hottest (margins ++ packages.map (· - 95_000)), hottest ((List.range 88).filterMap s.reading) with
      | some h, top =>
        let s := s.setRatio Obj.thermHot 0 h 1000
        let n := if h ≤ -2_000 then s.power.coolFor + 1 else 0
        let m := if 0 < h then slewM s.power.thermalM 4 true
          else if 10 ≤ n then slewM s.power.thermalM 4 false else s.power.thermalM
        let s := { s with power := { s.power with coolFor := n, thermalM := m } }
        settleArith { s with raising := { s.raising with hottest := top.getD s.raising.hottest } }
      | none, _ => s)

/-- SENSOR_DISAGREE: two valid diodes of a spot have differed by more than 4 °C for 10 s: its limit falls by 5 °C, once, and it is
recorded (R455). -/
def execSensorDisagree (spot : Fin 88) (first second : Nat) (millikelvin : Nat) (s : State) : Host.Outcome State Fault Refusal :=
  let ds := diodesOf spot
  let valid (i : Nat) : Bool := match ds[i]? with
    | some d => !s.discarded d
    | none => false
  .next (
    if !s.serving ∨ s.degraded spot ∨ first = second ∨ !valid first ∨ !valid second ∨ millikelvin ≤ 4_000 then s
    else
      (s.setB Obj.thermDegraded 0 (leBytes 11 (setBit (leNat (s.getB Obj.thermDegraded 0)) spot true))).record 0x4012
        [spot, Config.diodePair first second, millikelvin])

/-- TRIP: an unmasked diode has read 115 °C or more for 100 µs: every rail goes off with no flush, and TRIP_N is asserted. A discarded diode is
masked only while another diode of its spot is valid (R456, R485). -/
def execTrip (spot : Fin 88) (diode : Fin 4) (s : State) : Host.Outcome State Fault Refusal :=
  .next (
    match (diodesOf spot)[diode.val]? with
    | none => s
    | some d =>
      if s.pins.inReset ∨ (s.discarded d ∧ !s.blind spot) then s
      else powerOff ({ s with pins := { s.pins with tripHeld := true, trip := some (spot, diode) } }.send .tripN) 2)

end Sys2Proof.Machine
end

