-- ==== Sys2Proof/Machine/Clocks.lean ====
section
/-! DEFINITION. The rack reference, rack time and crossings into stopped domains (R470, R473 to R476). -/

namespace Sys2Proof.Machine

/-- The rack time is no longer valid, and the Scribe records why: 0 a misplaced mark, 1 a missing one (R475). -/
def timeLost (s : State) (why : Nat) : State := (s.setN Obj.clkTimeOk 0 0).record 0x0061 (why :: twoWords s.now)

/-- REFERENCE_LOSS: the reference is absent or off frequency for 10 µs; locked PLLs enter holdover (R470). -/
def execReferenceLoss (s : State) : Host.Outcome State Fault Refusal :=
  .next (
    if s.pins.inReset then s
    else
      let s := s.setN Obj.clkTimeOk 0 0
      if s.getN Obj.clkRef 0 = 0 then (s.setN Obj.clkRef 0 1).record 0x0060 [1] else s)

/-- REFERENCE_RETURN: the reference has been within limits for 100 ms; the PLLs leave holdover (R470). -/
def execReferenceReturn (s : State) : Host.Outcome State Fault Refusal :=
  .next (if s.getN Obj.clkRef 0 = 1 then (s.setN Obj.clkRef 0 0).record 0x0060 [0] else s)

/-- Whether rack time lies within 20 ns of a multiple of 10^9 (R475). -/
def onMark (s : State) : Bool :=
  let r := s.now % 1_000_000_000
  decide (r ≤ 20) || decide (999_999_980 ≤ r)

/-- SECOND_MARK: a second mark loads the value that CLK_TIME_SET holds, or, after a load, is checked against rack time (R474, R475). -/
def execSecondMark (s : State) : Host.Outcome State Fault Refusal :=
  .next (
    if s.pins.inReset then s
    else match s.clock.setTo with
      | some v => { s with clock := { s.clock with time := v, setTo := none, loaded := true } }.setN Obj.clkTimeOk 0 1
      | none => if s.clock.loaded ∧ !onMark s then timeLost s 0 else s)

/-- MARK_MISSING: no second mark has arrived within 1.001 s of the one before (R475). -/
def execMarkMissing (s : State) : Host.Outcome State Fault Refusal :=
  .next (if s.pins.inReset ∨ !s.clock.loaded then s else timeLost s 1)

/-- CROSSING_TIMEOUT: an access into a domain whose clock is stopped ends after 2 µs, with TIMEOUT or, the management core's, with a bus error, and is
counted; it has no effect, and the firmware records its own (R476; log 145). -/
def execCrossingTimeout (firmware : Bool) (s : State) : Host.Outcome State Fault Refusal :=
  .next (if s.pins.inReset then s else crossStopped firmware s)

end Sys2Proof.Machine
end

