-- ==== Sys2Proof/Machine/Raising.lean ====
section
/-! DEFINITION. Raising: RS_CMD and its results (R349 to R351), the steps (R352 to R364), retraining in service (R366, R367) and what
ends a step (R352, R368). A step runs from its RS_CMD write until RAISING_STEP_COMPLETE. -/

namespace Sys2Proof.Machine

/-! ## RS_CMD (R349 to R351, R391) -/

/-- RS_DETAIL: reason and item (R350). -/
def detailOf (f : Nat × Nat) : Nat := f.1 + 2 ^ 16 * (f.2 % 2 ^ 16)

/-- RS_RESULT and RS_DETAIL of a port. -/
def setResultOf (s : State) (n v detail : Nat) : State := (s.setR n Reg.rsResult v).setR n Reg.rsDetail detail

/-- A write of RS_CMD that is not performed: the port's result says why, and no command of the port is under way (R350, R351). -/
def turnAway (s : State) (n v : Nat) : State :=
  setResultOf { s with raising := { s.raising with cmd := put 0 s.raising.cmd n 0 } } n v 0

/-- Whether port `n` owns raising, or would by a write that is performed: no port does yet, or the owner's host was lost (R349). -/
def State.mayOwn (s : State) (n : Nat) : Bool :=
  s.getR 0 Reg.rsOwner == 0xFF || s.raising.orphan || s.getR 0 Reg.rsOwner == n

/-- A write of port `n` is performed: it owns raising from then on (R349). -/
def takeOwner (s : State) (n : Nat) : State :=
  if s.getR 0 Reg.rsOwner = 0xFF ∨ s.raising.orphan then
    { s with raising := { s.raising with orphan := false } }.setR 0 Reg.rsOwner n
  else s

/-- Whether a step or retrain that runs keeps a code from running beside it (R351). -/
def State.rsBusy (s : State) (code : Nat) : Bool :=
  let retrain := decide (0x20 < code)
  let early : Bool := match s.raising.running with
    | some (c, _) => decide (c < 0x16)
    | none => false
  if retrain then s.raising.retrain.isSome || early
  else s.raising.running.isSome || (s.raising.retrain.isSome && decide (code < 0x16))

/-- How a step ended last. -/
def State.outcome (s : State) (code : Nat) : Outcome := look Outcome.none s.raising.steps code

/-- Whether the step before the next one lets it begin: it is DONE, or it is a CORE_TEST that failed with BAY (R351). -/
def State.stepPassed (s : State) (code : Nat) : Bool :=
  s.outcome code == .done || (code == 0x14 && s.outcome code == .failed 0x06)

/-- Whether a code is in order. While the boot image runs only LOAD_FW is; a retrain needs the runtime image and an argument in range (R347, R351;
the retrains, log 57). -/
def State.rsAllowed (s : State) (code : Nat) : Bool :=
  let arg := s.getR 0 Reg.rsArg
  let last := s.raising.lastStep
  let runs := s.fw.image == .runtime
  match code with
  | 0x01 => s.fw.image == .boot || decide (last ≤ 1)
  | 0x21 => runs && decide (arg ≤ 191)
  | 0x22 => runs && decide (arg % 8 ≤ 5) && decide (arg = arg % 8 + 256 * (arg / 256 % 2))
  | c => runs && (c == last || (c == (if last = 1 then 0x11 else last + 1) && s.stepPassed last))

/-- A write of `code` to RS_CMD by port `n`: performed by `run`, or turned away (R349 to R351); in recovery mode it fails at once
(R391). -/
def rsCmd (n : Fin 4) (code : Nat) (c : Instr) (s : State) (run : State → State) : State :=
  s.emulated n c fun s =>
  if !s.portUp n ∨ s.fw.busy ∨ s.pins.departed then s
  else if s.fw.image = .recovery then setResultOf s n 2 (detailOf (0x0B, 0xFFFF))
  else if !s.hears n Reg.rsCmd then s
  else
    if !s.mayOwn n then turnAway s n 5
    else if s.rsBusy code then turnAway s n 4
    else if !s.rsAllowed code then turnAway s n 3
    else
      let s := takeOwner s n
      run (setResultOf { s with raising := { s.raising with cmd := put 0 s.raising.cmd n code } } n 1 0)

/-- A command of a port ends: its result and detail, where it is still the port's last command (R350). -/
def reply (s : State) (n code : Nat) (fail : Option (Nat × Nat)) : State :=
  if look 0 s.raising.cmd n = code then
    match fail with
    | none => setResultOf s n 0 0
    | some f => setResultOf s n 2 (detailOf f)
  else s

/-- A step begins. In stage 5 every step but LINK_SOAK waits before it begins its work (R442). -/
def beginStep (s : State) (n code : Nat) : State :=
  let waits := s.dark && code != 0x18
  let s := { s with raising := { s.raising with running := some (code, n), lastStep := code, stepAt := s.clock.up, waits } }.setR 0 Reg.rsStep code
  if waits then s else beginWork s code

/-- A step ends: its outcome, RAISE_STEPS_DONE, the result, and the Scribe's record of a failure (R352, R369). -/
def closeStep (s : State) (n code : Nat) (fail : Option (Nat × Nat)) : State :=
  let o : Outcome := match fail with
    | none => .done
    | some f => .failed (BitVec.ofNat 8 f.1)
  let s := { s with raising := { s.raising with running := none, waits := false, steps := put Outcome.none s.raising.steps code o } }
  let s := if code < 0x11 then s
    else s.setN Obj.raiseStepsDone 0 (setBit (s.getN Obj.raiseStepsDone 0) (code - 0x11) fail.isNone)
  let s := reply s n code fail
  match fail with
  | none => s
  | some f => s.record 0x0040 [code, detailOf f]

/-! ## LOAD_FW (R348, R372, R373, R377) -/

/-- After service resumes: stops that waited are made, timers that expired act, shoring follows power and coolant, completions are written and
commands fetched (R256, R315, R376, R377, R437). -/
def resumeWork (s : State) : State := upTo 8 (fun p s => settleWork s p) (settleShore (actExpired (resumeStops s)))

/-- Why LOAD_FW fails, as reason and item, if it does (R372). -/
def loadFails (s : State) (bs : Bytes) : Option (Nat × Nat) :=
  match imageFails s 2 bs with
  | some 4 => some (0x0C, 0)
  | some k => some (0x0B, k)
  | none =>
    if imgInterface bs = imgInterface (s.fw.boot.getD []) then none else some (0x0B, 5)

/-- LOAD_FW ends: the image is copied into the held store and checked there, and started where it passes; stages, coolant and a held state are taken up then
(R348, R372, R373, R377, R437). -/
def finishLoad (s : State) (n : Nat) : State :=
  let bs := s.fw.coming
  let s := { s with fw := { s.fw with held := some bs, coming := [] } }
  let resumes := s.fw.service.isSome
  match loadFails s bs with
  | some f => closeStep s n 0x01 (some f)
  | none =>
    let s := closeStep (startRuntime s bs) n 0x01 none
    if resumes then resumeWork s else settleShore s

/-- LOAD_FW: RS_CMD 0x01. The runtime image, read from host memory, is copied into the held store, checked and started (R348, R372, R373); in
stage 5 it waits (R442). -/
def execLoadFw (n : Fin 4) (image : Bytes) (s : State) : Host.Outcome State Fault Refusal :=
  .next (rsCmd n 0x01 (.loadFw n image) s fun s =>
    let bs := padTo (s.getR 0 Reg.rsImgLen) image
    let resumes := s.fw.service.isSome
    let last := s.raising.lastStep
    let s := beginStep s n 0x01
    let s := if resumes then { s with raising := { s.raising with lastStep := last } } else s
    let s := { s with fw := { s.fw with coming := bs } }
    if s.dark then s else finishLoad s n)

/-! ## FUSE_LOAD (R30, R353 to R355) -/

/-- Rows of 64 bytes in an SRAM array of a core, by the array code of a repair field; codes above 19 name none (R84, R353). -/
def sramRows (code : Nat) : Nat :=
  if code < 16 then 96 else if code < 18 then 128 else if code = 18 then 256 else if code = 19 then 64 else 0

/-- The regions of the fuse block whose fields are checked, each with the index of its first invalid field: a CRC fails first. -/
def fuseFails (f : Fuses) : Option (Nat × Nat) :=
  let lane (v : Nat) : Bool := decide (v ≤ 32) || v == 63
  let sram (v : Half) : Bool := !v.msb || (!bit v.toNat 9 && decide (v.toNat % 512 < sramRows (bits v.toNat 10 5)))
  match f.badCrc with
  | some r => some (0x01, r)
  | none =>
    if f.variant = 0 ∨ 3 < f.variant then some (0x02, 1)
    else if f.grade = 0 ∨ 3 < f.grade then some (0x02, 2)
    else
      let bad := (f.spare.filter fun e => !(decide (e.2 ≤ 16) || e.2 == 31)).map (·.1) ++
        (f.lanes.filter fun e => !lane e.2).map (512 + ·.1) ++ (f.repairs.filter fun e => !sram e.2).map (9216 + ·.1) ++
        (f.bayRepairs.filter fun e => e.2.msb && bit e.2.toNat 9).map (·.1)
      bad.head?.map fun i => (0x02, i)

/-- The value of the fuse field that a soft entry matches, where that field is used (R353, R354). -/
def usedFuse (f : Fuses) (kind : Byte) (i : Nat) : Option Nat :=
  match kind.toNat with
  | 1 => let v := look 31 f.spare i
    if v = 31 then none else some v
  | 2 => let v := look 63 f.lanes i
    if v = 63 then none else some v
  | 3 => let v := look 0 f.repairs i
    if v.msb then some v.toNat else none
  | _ => let v := look 0 f.bayRepairs i
    if v.msb then some v.toNat else none

/-- A soft entry that meets a used fuse field is ignored, and the Scribe records it (R354). -/
def applySoft (s : State) : State :=
  s.raising.soft.foldl (fun s (kind, i, _) =>
    match usedFuse s.fuses kind i.toNat with
    | some v => s.record 0x0042 [kind.toNat, i.toNat, v]
    | none => s) s

/-! ## Memory training (R170 to R172, R360, R361) -/

/-- The channel of a package offset of main memory, as 8 × controller + channel. -/
def unitOf (s : State) (a : Nat) : Nat :=
  let (ctl, o) := placeOf s a
  8 * ctl + (channelOf o).1

/-- Every burst of some channels written with zeros (R172, R360). -/
def zeroChannels (s : State) (us : List Nat) : State :=
  { s with
    mem := s.mem.filter fun c => !us.contains (unitOf s c.1)
    bad := s.bad.filter fun b => !us.contains (unitOf s (64 * b)) }

/-- A controller reads the bursts of a row before its repair, and writes them back as it has read them; an uncorrectable one is counted and recorded,
and stays so (R200, R361). A path that zeroes the channel first leaves it none (R172, R360). -/
def readRow (s : State) (x : Nat × Nat) : State :=
  ((rowBursts s.tiers x.1 x.2).filter s.bad.contains).foldl (fun s b => noteUncorrectable 9 s (64 * b)) s

/-- Pending repairs of some channels are applied, each after its row has been read; a row for which no spare is left is retired, and is read too (R361;
DESIGN CHOICE, log 197). -/
def applyRepairs (s : State) (us : List Nat) (retired : List (Nat × Nat)) : State :=
  let mine := s.raising.repairs.filter fun x => us.contains x.1
  let s := mine.foldl readRow s
  let kept := s.raising.repairs.filter fun x => !us.contains x.1
  let s := { s with raising := { s.raising with
    repairs := kept, retired := s.raising.retired ++ mine.filter fun x => retired.contains x && !s.raising.retired.contains x } }
  countExtents (s.setN Obj.memRepairPending 0 kept.length)

/-- Channels are trained: requests reach them, and their repairs are applied. -/
def trainChannels (s : State) (us : List Nat) (retired : List (Nat × Nat)) : State :=
  let s := setTrained s us true
  applyRepairs { s with raising := { s.raising with failedCh := s.raising.failedCh.filter fun u => !us.contains u } } us retired

/-- A training step ends: MEM_GRADE_RUN is the grade at which MEM_TRAIN_A began, and CHANNEL names the lowest channel that could not be trained (R170, R352, R360, R361). -/
def endTraining (s : State) (n code : Nat) (r : Report) : State :=
  let all := stepChannels code
  let good := if r.ok then all else all.filter fun u => r.channels.any (·.val == u)
  let s := if code = 0x13 then s.setN Obj.memGradeRun 3 s.raising.grade else s
  let s := if s.raising.cold then zeroChannels s good else s
  let s := trainChannels s good r.retired
  let s := closeStep s n code ((all.find? fun u => !good.contains u).map fun u => (0x05, u))
  if code = 0x16 then upTo 8 (fun p s => tryReturn s p) s else s

/-! ## CORE_TEST (R356, R357) -/

/-- A core test ends: BAY names the lowest bay that did not pass (R352). -/
def endCoreTest (s : State) (n : Nat) : State :=
  let pass := s.getN Obj.raiseBayPass 0
  closeStep s n 0x14 (((List.range 64).find? fun b => !bit pass b).map fun b => (0x06, b))

/-- The bay of the site, core row or array that a soft entry repairs: 8 rows, 136 sites and 4 buffer repairs a bay, two SRAM repairs a
site (R28, R353). -/
def softBay (kind : Byte) (i : Nat) : Nat :=
  match kind.toNat with
  | 1 => i / 8
  | 2 => i / 136
  | 3 => i / 272
  | _ => i / 4

/-- Whether the fuse field and the soft entry of a place are both unused (R356). -/
def State.spareFree (s : State) (kind : Byte) (i : Nat) : Bool :=
  (usedFuse s.fuses kind i).isNone && !s.raising.soft.any fun e => e.1 == kind && e.2.1.toNat == i

/-- A new defect: a soft entry hides it where the matching fields are unused; where they are used the bay fails, for a second spare site
or lane or a third spare row would be needed (R356). The mask is of bays that pass. -/
def takeSoft (m : State × Nat) (e : Byte × Half × Word) : State × Nat :=
  let (s, pass) := m
  if s.spareFree e.1 e.2.1.toNat then ({ s with raising := { s.raising with soft := s.raising.soft ++ [e] } }, pass)
  else (s, setBit pass (softBay e.1 e.2.1.toNat) false)

/-- A full core test: bays are reset, the pass map and new soft entries are recorded (R354, R356). -/
def fullTest (s : State) (r : Report) : State :=
  let s := (List.range 64).foldl resetBay s
  let good := (List.range 64).foldl (fun m b => if r.failedBays.any (·.val == b) then m else setBit m b true) 0
  let (s, map) := r.soft.foldl takeSoft (s, good)
  { s with raising := { s.raising with tested := true } }.setN Obj.raiseBayPass 0 map

/-! ## Service (R316, R358, R364) -/

/-- What follows when service begins or widens: extents, ARITH's limit, and partitions that may leave SHORED. -/
def widen (s : State) : State := upTo 8 (fun p s => tryReturn s p) (settleArith (countExtents s))

/-- The first step whose outcome blocks READY (R364). -/
def State.blocksReady (s : State) : Option Nat :=
  [0x13, 0x14, 0x16, 0x18, 0x19].find? fun c => !s.stepPassed c

/-- READY completes: the limits of REDUCED service end, partitions move, and the training record is stored (R358, R364). -/
def enterReady (s : State) (hottest : Int) : State :=
  let s := (s.setR 0 Reg.rsService 3).setN Obj.routePopulated 0 s.net.populated
  let s := { s with raising := { s.raising with record := some (s.getN Obj.memGradeRun 3, hottest), hottest } }
  let s := s.setN Obj.raiseStored 0 1
  let s := s.setN Obj.raiseLastMs 0 ((s.uptime - s.raising.started.toNat) / 1_000_000 % 2 ^ 32)
  let s := upTo 8 (fun p s => if s.pstate p = psReduced then s.setPstate p psReady else s) s
  widen s

/-! ## The steps' RS_CMD writes -/

/-- FUSE_LOAD: RS_CMD 0x11 (R352). -/
def execFuseLoad (n : Fin 4) (s : State) : Host.Outcome State Fault Refusal := .next (rsCmd n 0x11 (.fuseLoad n) s fun s => beginStep s n 0x11)

/-- CLOCKS: RS_CMD 0x12 (R352). -/
def execClocks (n : Fin 4) (s : State) : Host.Outcome State Fault Refusal := .next (rsCmd n 0x12 (.clocks n) s fun s => beginStep s n 0x12)

/-- MEM_TRAIN_A: RS_CMD 0x13; MC00 to MC11 are trained anew (R171, R352). -/
def execMemTrainA (n : Fin 4) (s : State) : Host.Outcome State Fault Refusal :=
  .next (rsCmd n 0x13 (.memTrainA n) s fun s => beginStep s n 0x13)

/-- CORE_TEST: RS_CMD 0x14. After a warm reset it keeps the map of the last full test and completes at once, unless RS_ARG[0] is 1
(R357); in stage 5 it waits (R442). -/
def execCoreTest (n : Fin 4) (s : State) : Host.Outcome State Fault Refusal :=
  .next (rsCmd n 0x14 (.coreTest n) s fun s =>
    let full := s.raising.cold || !s.raising.tested || bit (s.getR 0 Reg.rsArg) 0
    let s := beginStep { s with raising := { s.raising with full } } n 0x14
    if full ∨ s.dark then s else endCoreTest s n)

/-- REDUCED: RS_CMD 0x15 (R358). -/
def execReduced (n : Fin 4) (s : State) : Host.Outcome State Fault Refusal := .next (rsCmd n 0x15 (.reduced n) s fun s => beginStep s n 0x15)

/-- MEM_TRAIN_B: RS_CMD 0x16; MC12 to MC23 are trained anew (R171, R352). -/
def execMemTrainB (n : Fin 4) (s : State) : Host.Outcome State Fault Refusal :=
  .next (rsCmd n 0x16 (.memTrainB n) s fun s => beginStep s n 0x16)

/-- LINK_TRAIN: RS_CMD 0x17; every link begins to train, but one that a retrain has (R261, R362). -/
def execLinkTrain (n : Fin 4) (s : State) : Host.Outcome State Fault Refusal :=
  .next (rsCmd n 0x17 (.linkTrain n) s fun s => beginStep s n 0x17)

/-- LINK_SOAK: RS_CMD 0x18; the counts of the links in IDENT start at zero. With no link in IDENT it completes at once (R363). -/
def execLinkSoak (n : Fin 4) (s : State) : Host.Outcome State Fault Refusal :=
  .next (rsCmd n 0x18 (.linkSoak n) s fun s =>
    let s := beginStep s n 0x18
    let s := upTo 6 (fun l s => if s.linkState l = lsIdent then zeroSoak s l else s) s
    if (List.range 6).any fun l => s.linkState l == lsIdent then s else closeStep s n 0x18 none)

/-- PLUMB: RS_CMD 0x19 (R289, R352). -/
def execPlumb (n : Fin 4) (s : State) : Host.Outcome State Fault Refusal := .next (rsCmd n 0x19 (.plumb n) s fun s => beginStep s n 0x19)

/-- READY: RS_CMD 0x1A (R364). -/
def execReady (n : Fin 4) (s : State) : Host.Outcome State Fault Refusal := .next (rsCmd n 0x1A (.ready n) s fun s => beginStep s n 0x1A)

/-! ## Retrains (R365 to R367) -/

/-- RETRAIN_CHANNEL: RS_CMD 0x21, RS_ARG the channel (R366). -/
def execRetrainChannel (n : Fin 4) (s : State) : Host.Outcome State Fault Refusal :=
  .next (rsCmd n 0x21 (.retrainChannel n) s fun s =>
    { s with raising := { s.raising with retrain := some (0x21, s.getR 0 Reg.rsArg, n) } })

/-- RETRAIN_LINK: RS_CMD 0x22, RS_ARG[2:0] the link, RS_ARG[8] accepts a changed far end; the link leaves UP and trains (R290, R367). -/
def execRetrainLink (n : Fin 4) (s : State) : Host.Outcome State Fault Refusal :=
  .next (rsCmd n 0x22 (.retrainLink n) s fun s =>
    let arg := s.getR 0 Reg.rsArg
    let l := arg % 8
    let s := { s with raising := { s.raising with retrain := some (0x22, l, n.val) } }
    let y := s.link l
    startTraining (s.setLink l { y with retrain := true, accept := bit arg 8, attempt := y.attempt + 1 }) l)

/-- The training record is void, and RAISE_STORED says so (R365, R369). -/
def voidRecord (s : State) : State := { s with raising := { s.raising with record := none } }.setN Obj.raiseStored 0 0

/-- A request that waited for a channel is made, oldest first (R366). Where the controllers' clocks rest it ends with TIMEOUT, is counted and has no
effect; a host's read is then aborted (R476; log 145). -/
def replay (s : State) (h : Held) : State :=
  if s.resting then
    let s := crossStopped false s
    match h with
    | .read n _ _ _ => s.send (.hostRead n none)
    | _ => s
  else match h with
  | .read n p a len => aperRead s n p a len
  | .write _ p a data => (writeRange s p a data).1
  | .burst _ q e => burstRequest s q e
  | .packet p h data => replayPacket s p h data

/-- The requests that waited are made, oldest first, and a partition whose release waited for them alone is free (R366, R425). -/
def replayHeld (s : State) : State :=
  let hs := s.raising.held
  upTo 8 (fun p s => releaseCheck s p) (hs.foldl replay { s with raising := { s.raising with held := [] } })

/-- A retrain of a channel ends: its repairs are applied; or the channel is left untrained, the record void, and the Scribe records it
(R361, R366). -/
def endChannel (s : State) (u : Nat) (ok : Bool) (retired : List (Nat × Nat)) : State :=
  if ok then trainChannels s [u] retired
  else
    let s := setTrained (voidRecord s) [u] false
    let failed := s.raising.failedCh
    { s with raising := { s.raising with failedCh := if failed.contains u then failed else failed ++ [u] } }.note none
      .retrainChannel [u]

/-- A commanded retrain ends, and what waited for it is made (R366). -/
def closeRetrainCmd (s : State) (n code : Nat) (fail : Option (Nat × Nat)) : State :=
  replayHeld (reply { s with raising := { s.raising with retrain := none } } n code fail)

/-- A link's retrain ends, by command or by itself; one that fails voids the training record (R290, R365, R367). -/
def finishLink (s : State) (l : Nat) : State × Option (Nat × Nat) :=
  match endRetrain s l with
  | (s, none) => (s, none)
  | (s, some (r, i)) => (voidRecord s, some (r.toNat, i))

/-! ## What ends (R352, R368, R442) -/

/-- Whether a link lets LINK_TRAIN complete: it is in IDENT, or has gone on from there to UP, or its training reached none of the rates that
LINK_RATE_ALLOW permits. One that departed in IDENT trains again first (R291, R362, R367). -/
def State.trained (s : State) (l : Nat) : Bool :=
  s.linkState l == lsIdent || s.linkState l == lsUp || (s.linkState l != lsTrain && (s.link l).missed)

/-- The step that runs ends, with what the hardware found. -/
def finishStep (s : State) (code n : Nat) (r : Report) : State :=
  match code with
  | 0x01 => finishLoad s n
  | 0x11 => match fuseFails s.fuses with
    | some f => closeStep s n code (some f)
    | none => closeStep (settleLimit (applySoft s)) n code none
  | 0x12 =>
    if r.ok then
      closeStep (settleArith ((s.setN Obj.clkRoot 0 (2 * s.fuses.arith)).setN Obj.clkRef 0 0)) n code none
    else if (r.reason = 0x03 ∧ r.item = 0) ∨ (r.reason = 0x04 ∧ r.item.toNat ≤ 2) then
      closeStep s n code (some (r.reason.toNat, r.item.toNat))
    else s
  | 0x13 => endTraining s n code r
  | 0x14 => endCoreTest (if s.raising.full then fullTest s r else s) n
  | 0x15 => widen (closeStep (s.setR 0 Reg.rsService 2) n code none)
  | 0x16 => endTraining s n code r
  | 0x17 => if (List.range 6).all s.trained then closeStep s n code none else s
  | 0x18 =>
    closeStep s n code (((List.range 6).find? fun l => s.linkState l == lsIdent && !s.soaked l).map fun l => (0x07, l))
  | 0x19 => match plumb s with
    | (s, fail) => closeStep s n code (fail.map fun l => (0x08, l))
  | 0x1A => match s.blocksReady with
    | some c => closeStep s n code (some (0x09, c))
    | none => closeStep (enterReady s r.hottest) n code none
  | _ => s

/-- Whether the firmware can end a step: the runtime acts, or the boot image does, which runs LOAD_FW alone (R347, R370). -/
def State.endsSteps (s : State) : Bool := s.serving || (s.fw.image == .boot && !s.fw.busy && !s.fw.hung && !s.pins.inReset)

/-- RAISING_STEP_COMPLETE: the step that runs, the retrain that RS_CMD began or a link's own retrain ends (R352, R366, R367). In stage 5
every step but LINK_SOAK waits (R442). -/
def execRaisingStepComplete (r : Report) (s : State) : Host.Outcome State Fault Refusal :=
  .next (
    if !s.endsSteps ∨ s.pins.departed ∨ (r.what ≠ .step ∧ !s.serving) then s
    else match r.what with
    | .step => match s.raising.running with
      | none => s
      | some (code, n) => if s.dark ∧ code ≠ 0x18 then s else finishStep (wakeStep s) code n r
    | .retrain => match s.raising.retrain with
      | none => s
      | some (code, u, n) =>
        if code = 0x21 then
          closeRetrainCmd (endChannel s u r.ok r.retired) n code (if r.ok then none else some (0x05, u))
        else if s.linkState u = lsTrain then s
        else match finishLink s u with
          | (s, fail) => closeRetrainCmd s n code fail
    | .link l =>
      let mine : Bool := match s.raising.retrain with
        | some (c, u, _) => c == 0x22 && u == l.val
        | none => false
      if !(s.link l).retrain ∨ mine ∨ s.linkState l = lsTrain then s else (finishLink s l).1)

end Sys2Proof.Machine
end

