-- ==== Sys2Proof/Machine/Firmware.lean ====
section
/-! DEFINITION. Boot image updates (R384 to R386, R391) and their confirmation (R388). -/

namespace Sys2Proof.Machine

/-! ## Updates (R384 to R386, R391) -/

/-- Statuses of R386. -/
abbrev upOk : Nat := 0
/-- NOT_ARMED. -/
abbrev upNotArmed : Nat := 1
/-- STATE. -/
abbrev upState : Nat := 2
/-- ORDER. -/
abbrev upOrder : Nat := 3
/-- LENGTH. -/
abbrev upLength : Nat := 4
/-- CRC. -/
abbrev upCrc : Nat := 5
/-- BASE. -/
abbrev upBase : Nat := 6
/-- FORMAT. -/
abbrev upFormat : Nat := 7
/-- SIGNATURE. -/
abbrev upSignature : Nat := 8
/-- ROLLBACK. -/
abbrev upRollback : Nat := 9
/-- STORAGE. -/
abbrev upStorage : Nat := 10

/-- The seconds that FW_UPD_ARM has left (R384, R392). -/
def State.armLeft (s : State) : Nat :=
  match s.fw.armed with
  | some (t, k) => k - (s.uptime - t.toNat) / 1_000_000_000
  | none => 0

/-- Whether the module runs in recovery mode. -/
def State.recovering (s : State) : Bool := s.fw.image == .recovery && !s.pins.inReset

/-- Whether an update datagram reaches what serves it: port 23,058 at the service port's link-local address (R345, R384). -/
def updHeard (s : State) (o : Origin) : Bool :=
  o.service && o.dstAddr == s.firstAddr && o.dstPort == 23058 && o.sumOk && !o.fragment && (s.serving || s.recovering)

/-- An answer: the op plus 0x80, transaction and offset echoed, and the status (R384). -/
def updAnswer (s : State) (o : Origin) (m : UpdMsg) (st : Nat) : State :=
  s.send (.update o.addr o.port ([m.op + 0x80, 0] ++ leBytes 2 m.transaction.toNat ++ leBytes 4 m.offset.toNat ++ zeroBytes 4 ++
    leBytes 4 st))

/-- The answer of BEGIN, DATA or END; an error is remembered for STATUS. -/
def updEndWith (s : State) (o : Origin) (m : UpdMsg) (st : Nat) : State :=
  updAnswer (if st = upOk then s else { s with fw := { s.fw with lastErr := st } }) o m st

/-- Whether a request keeps the fields of R384: total only on BEGIN, offset only on DATA, data only on DATA, the rest zero. -/
def updForm (m : UpdMsg) : Bool :=
  m.status == 0 && decide (m.flags.toNat ≤ 1) && (m.op == 1 || (m.total == 0 && m.flags == 0)) &&
    (m.op == 2 || (m.offset == 0 && m.data.isEmpty)) && decide (m.data.length ≤ 1024)

/-- A request of op `op`: answered NOT_ARMED outside recovery mode while FW_UPD_ARM has no time left, STATE where R384 does not accept
it, and otherwise performed. -/
def updRequest (o : Origin) (m : UpdMsg) (op : Byte) (s : State) (accepted : Bool) (run : State → State) : State :=
  if !updHeard s o ∨ m.op ≠ op then s
  else if !s.recovering ∧ s.armLeft = 0 then updEndWith s o m upNotArmed
  else if !updForm m ∨ !accepted then updEndWith s o m upState
  else run s

/-- The bank that a package is written to: the one that does not hold the confirmed image, or A where neither holds a valid one (R383,
R391). -/
def State.freeBank (s : State) : Nat :=
  let b := s.getN Obj.fwConfirmedBank 0
  if !bankGood s b ∧ !bankGood s (1 - b) then 0 else 1 - b

/-- BEGIN: a transfer is bound to its source, and FW_TRIALS returns to 0; the bank that it will fill is erased (R384, R389, R392;
log 137). -/
def execUpdBegin (o : Origin) (m : UpdMsg) (s : State) : Host.Outcome State Fault Refusal :=
  let st := s.updState
  .next (updRequest o m 1 s ((st == usNone || st == usFailed) && (m.flags == 1) == s.recovering) fun s =>
    if m.total.toNat < 64 ∨ 8 * 2 ^ 20 < m.total.toNat then updEndWith s o m upLength
    else
      let u : Update := ⟨o.addr, o.port, m.total.toNat, [], m.flags == 1, st, none⟩
      let b := s.freeBank
      let s := { s with fw := { s.fw.setBank b none with update := some u, candidate := b } }
      updEndWith ((s.setN Obj.fwUpdState 0 usReceiving).setN Obj.fwTrials 0 0) o m upOk)

/-- Whether a transfer that is RECEIVING comes from a source. -/
def State.receiving (s : State) (o : Origin) : Bool :=
  s.updState == usReceiving && (match s.fw.update with
    | some u => u.addr == o.addr && u.port == o.port
    | none => false)

/-- DATA: the segment at the next offset is taken (R384, R386). -/
def execUpdData (o : Origin) (m : UpdMsg) (s : State) : Host.Outcome State Fault Refusal :=
  .next (updRequest o m 2 s (s.receiving o) fun s =>
    match s.fw.update with
    | none => s
    | some u =>
      if m.offset.toNat ≠ u.bytes.length then updEndWith s o m upOrder
      else if u.total < u.bytes.length + m.data.length then updEndWith s o m upLength
      else updEndWith { s with fw := { s.fw with update := some { u with bytes := u.bytes ++ m.data } } } o m upOk)

/-- The operation records of a delta package, applied to the old image from `built` on: the candidate, or the status of the failure (R385);
`n` bounds the records. -/
def applyRecords (old : Bytes) : Nat → Bytes → Bytes → Nat ⊕ Bytes
  | 0, _, _ => .inl upLength
  | n + 1, rest, built =>
    let k := field rest 4 4
    let src := field rest 8 4
    if rest.length < 16 then .inl upLength
    else if !zeros rest 1 3 || !zeros rest 12 4 then .inl upFormat
    else match field rest 0 1 with
      | 1 => if old.length < src + k then .inl upFormat else applyRecords old n (rest.drop 16) (built ++ sub old src k)
      | 2 =>
        let pad := roundUp k 16
        if rest.length < 16 + pad then .inl upLength
        else if !zeros rest (16 + k) (pad - k) then .inl upFormat
        else applyRecords old n (rest.drop (16 + pad)) (built ++ sub rest 16 k)
      | 3 => if rest.length = 16 then .inr built else .inl upLength
      | _ => .inl upFormat

/-- A delta package checked against the confirmed image: the candidate that it builds, or the status (R385, R386). -/
def buildDelta (old pkg : Bytes) : Nat ⊕ Bytes :=
  if 4 * 2 ^ 20 < field pkg 0x28 4 then .inl upLength
  else if crcAt pkg 0x2C ≠ BitVec.ofNat 32 (field pkg 0x2C 4) then .inl upCrc
  else if Config.shake256 old ≠ sub pkg 8 32 then .inl upBase
  else if field pkg 0 4 ≠ 0x4C44_4A4B ∨ field pkg 4 1 ≠ 1 ∨ !zeros pkg 5 3 ∨ !zeros pkg 0x30 16 then .inl upFormat
  else match applyRecords old (pkg.length / 16) (pkg.drop 64) [] with
    | .inl st => .inl st
    | .inr built => if built.length = field pkg 0x28 4 then .inr built else .inl upFormat

/-- A FULL package checked: a whole boot image (R386, R391). -/
def checkFull (s : State) (bs : Bytes) : Nat ⊕ Bytes :=
  match imageFails s 1 bs with
  | none => .inr bs
  | some 4 => .inl upRollback
  | some _ => .inl upSignature

/-- END: the package is checked; the candidate is applied, or the transfer ends and its bank is erased (R386). -/
def execUpdEnd (o : Origin) (m : UpdMsg) (s : State) : Host.Outcome State Fault Refusal :=
  .next (updRequest o m 3 s (s.receiving o) fun s =>
    match s.fw.update with
    | none => s
    | some u =>
      let old := (s.fw.bank (s.getN Obj.fwConfirmedBank 0)).getD []
      let made := if u.bytes.length ≠ u.total then .inl upLength
        else if u.full then checkFull s u.bytes else buildDelta old u.bytes
      match made with
      | .inl st => updEndWith (dropUpdate s u.prev) o m st
      | .inr image =>
        if m.noFlash then updEndWith (dropUpdate s u.prev) o m upStorage
        else updEndWith ({ s with fw := { s.fw with update := some { u with apply := some image } } }.setN Obj.fwUpdState 0
          usApplying) o m upOk)

/-- STATUS: FW_UPD_STATE and the last error, to any source in every state (R384). -/
def execUpdStatus (o : Origin) (m : UpdMsg) (s : State) : Host.Outcome State Fault Refusal :=
  .next (updRequest o m 4 s true fun s => updAnswer s o m (s.updState + 256 * s.fw.lastErr))

/-- APPLY_DONE: the candidate is written to its bank, and awaits its first boot; in recovery mode the ROM then selects an image (R386,
R391). -/
def execApplyDone (s : State) : Host.Outcome State Fault Refusal :=
  .next (
    if s.updState ≠ usApplying then s
    else match s.fw.update.bind (·.apply) with
    | none => s
    | some image =>
      let f := { s.fw.setBank s.fw.candidate (some image) with update := none }
      let f := if s.recovering then { f with image := .rom } else f
      { s with fw := f }.setN Obj.fwUpdState 0 usPending)

/-- UPDATE_SILENCE: a RECEIVING transfer has had no message for 10 s: it returns to its previous state, and its bank is erased (R384). -/
def execUpdateSilence (s : State) : Host.Outcome State Fault Refusal :=
  .next (
    if s.updState ≠ usReceiving then s
    else match s.fw.update with
    | some u => dropUpdate s u.prev
    | none => s)

/-! ## Confirmation (R388, R390) -/

/-- CONFIRM: rollback fuses are blown up to the candidate's level, its bank is the confirmed one, and the other bank and the old settings
are given up. -/
def confirmCandidate (s : State) : State :=
  let c := s.fw.candidate
  let level := imgLevel ((s.fw.bank c).getD [])
  let s := { s with
    fuses := { s.fuses with rollback := max s.fuses.rollback level }
    fw := { s.fw.setBank (1 - c) none with candidate := 1 - c, confirmed := none, trialWrites := 0 } }
  (s.setN Obj.fwConfirmedBank 0 c).setN Obj.fwUpdState 0 usNone

/-- REJECT: the candidate failed, and the next reset boots the confirmed image. -/
def rejectCandidate (s : State) : State := s.setN Obj.fwUpdState 0 usFailed

end Sys2Proof.Machine
end

