-- ==== Sys2Proof/Machine/Identity.lean ====
section
/-! DEFINITION. Identity and attestation (R393 to R406): quotes and leaf indices, revocation of image roots and session roots. -/

namespace Sys2Proof.Machine

/-! ## Quotes (R401 to R403) -/

/-- The identity public key: OID, root and SEED (R394, R406). -/
def identityPublic : Bytes := padTo 68 Config.identityKey

/-- The 128 signed bytes of the identity certificate (R394). -/
def certBody (s : State) : Bytes :=
  leBytes 4 0x4349_4A4B ++ [1] ++ zeroBytes 3 ++ leBytes 8 s.fuses.serial.toNat ++ leBytes 1 s.fuses.variant ++
    leBytes 1 s.fuses.grade ++ zeroBytes 6 ++ identityPublic ++ zeroBytes 4 ++ leBytes 1 (Config.certSlot % 4) ++ zeroBytes 31

/-- The identity certificate: its body, and Celoon's signature over it (R394). -/
def identityCert (s : State) : Bytes := certBody s ++ padTo 2820 Config.certSignature

/-- The far-end serial number of a link, from LINK_FAR_ID; zero where it is empty (R402). -/
def State.farSerial (s : State) (l : Nat) : Nat := field (s.getB Obj.linkFarId (l + 1)) 16 8

/-- The 256-byte body of a quote (R402). -/
def quoteBody (s : State) (nonce : Bytes) (index : Nat) : Bytes :=
  let boot := s.fw.boot.getD []
  let held := s.fw.held.getD []
  let plan := s.getB Obj.routePlan 0
  leBytes 4 0x5141_4A4B ++ [1] ++ zeroBytes 3 ++ leBytes 8 s.fuses.serial.toNat ++ padTo 32 nonce ++ leBytes 8 s.now ++
    padTo 32 (Config.shake256 boot) ++ leBytes 4 (imgVersion boot) ++ leBytes 4 (s.getN Obj.fwRtVer 0) ++
    padTo 32 (Config.shake256 held) ++ leBytes 1 s.fuses.variant ++ leBytes 1 s.fuses.rollback ++
    leBytes 1 (s.getN Obj.secImgRevoked 0) ++ leBytes 1 (s.getN Obj.secMoved 0) ++ leBytes 4 (s.getN Obj.routeCoord 0) ++
    leBytes 1 s.rack ++ (List.range 6).flatMap (fun l => leBytes 1 (s.getN Obj.linkPlumb (l + 1))) ++
    leBytes 1 s.updState ++ (List.range 6).flatMap (fun l => leBytes 8 (s.farSerial l)) ++
    (if plan.isEmpty then zeroBytes 32 else padTo 32 (Config.shake256 plan)) ++ leBytes 8 index ++ zeroBytes 24

/-- Whether a quote cannot begin now: one is being signed, the first tree is not built, or the last one was signed less than 100 ms
ago (R401). -/
def quoteBusy (s : State) : Bool :=
  s.sec.signing.isSome || !s.sec.treeBuilt || (match s.sec.lastQuote with
    | some t => decide (s.uptime < t.toNat + 100_000_000)
    | none => false)

/-- Whether the key is exhausted (R397). -/
def keySpent (s : State) : Bool := decide (2 ^ 40 ≤ s.sec.next)

/-- The key engine begins to sign a quote: it takes the next index, and reserves the following block when the next index reaches 512 within
its own (R395, R401). -/
def beginQuote (s : State) (nonce : Bytes) (who : Holder × Msg) : State :=
  let i := s.sec.next
  let x := { s.sec with next := i + 1, signing := some (i, quoteBody s nonce i, some who) }
  noteLow { s with sec := if (i + 1) % 1024 = 512 then x.reserve (x.top.getD 0) else x }

/-- BOTTOM_TREE_BUILT: the key engine has built a bottom tree; the first one after a start ends the refusal of quotes (R395, R401). -/
def execBottomTreeBuilt (s : State) : Host.Outcome State Fault Refusal :=
  .next (if s.fw.began then { s with sec := { s.sec with treeBuilt := true } } else s)

/-! ## Image roots (R398) -/

/-- The slot of an image that the module depends on. -/
def slotOf (x : Option ImageBytes) : List Nat :=
  match x with
  | some bs => [imgSlot bs]
  | none => []

/-- Whether revoking the slots of a mask is refused: it would revoke the slot of the confirmed boot image or of the held runtime image, or
leave no slot unrevoked (R398). -/
def revokeRefused (s : State) (mask : Nat) : Bool :=
  let old := s.getN Obj.secImgRevoked 0
  let used := slotOf (s.fw.bank (s.getN Obj.fwConfirmedBank 0)) ++ slotOf s.fw.held
  used.any (fun i => bit mask i && !bit old i) || old ||| mask == 15

/-- The revocation bits of a mask are blown; bits are never cleared (R398). -/
def revoke (s : State) (mask : Nat) : State := s.setN Obj.secImgRevoked 0 (s.getN Obj.secImgRevoked 0 ||| mask)

/-! ## Session roots (R399) -/

/-- The public root of a session root slot; an empty string where the slot is empty. -/
def State.sessRoot (s : State) (slot : Nat) : Bytes := s.getB Obj.secSessRoot (slot + 1)

/-- Whether every session root slot is empty, which allows a claim. -/
def State.unclaimed (s : State) : Bool := (List.range 8).all fun i => (s.sessRoot i).isEmpty

/-- The OID of XMSS-SHAKE256_20_256 in SP 800-208, as RFC 8391 encodes it (PRESUMED, log 21). -/
def xmssOid : Bytes := [0, 0, 0, 0x12]

/-- A session root slot is written by the session root `writer`, 0xFF for a claim: emptying slot 0 empties every slot; the change is
recorded (R399, R465). -/
def writeRoot (s : State) (slot writer : Nat) (key : Bytes) : State :=
  if s.sessRoot slot = key then s
  else
    let s := if slot = 0 ∧ key.isEmpty then upTo 8 (fun i s => s.setB Obj.secSessRoot (i + 1) []) s
      else s.setB Obj.secSessRoot (slot + 1) key
    s.record 0x1011 [slot, writer]

end Sys2Proof.Machine
end

