-- ==== Sys2Proof/Machine/Nonlinear.lean ====
section
/-! DEFINITION. Nonlinear tables and range reduction, group 0x5 (R132). -/

namespace Sys2Proof.Machine

/-- VNL: table imm[1:0], lane by lane; an uncorrectable entry that a lane reads is a DATA_ERROR (R108, R132). -/
def execVnl (x : AtCore) (f : Fields) (s : State) : Host.Outcome State Fault Refusal :=
  let c := x.core
  let s := s.strike c x.found
  let row := s.row (rowOf c)
  let t := bits f.imm.toNat 0 2
  let tab := readBytes row.tables (1024 * t) 1024
  .next (issue .vnl c f s fun k =>
    let bad := (k.getV f.a).any fun x => (entriesRead tab x).any fun e => k.badTables.contains (64 * t + e)
    .unless (lowest [(bad, dataError)]) (lanes1 f (nonlinear tab) k))
/-- VFLR: INT32 floor, saturating; NaN gives 0. -/
def execVflr (x : AtCore) (f : Fields) (s : State) : Host.Outcome State Fault Refusal :=
  let c := x.core
  let s := s.strike c x.found
  .next (issue .vflr c f s (lanes1 f ffloor))
/-- VFRAC: va − floor(va). -/
def execVfrac (x : AtCore) (f : Fields) (s : State) : Host.Outcome State Fault Refusal :=
  let c := x.core
  let s := s.strike c x.found
  .next (issue .vfrac c f s (lanes1 f ffrac))
/-- VLDEXP: va × 2^vb. -/
def execVldexp (x : AtCore) (f : Fields) (s : State) : Host.Outcome State Fault Refusal :=
  let c := x.core
  let s := s.strike c x.found
  .next (issue .vldexp c f s fun k =>
    .step (k.setV f.d (((k.getV f.a).zip (k.getV f.b)).map fun (x, y) => fldexp x y.toInt)))

end Sys2Proof.Machine
end

