-- ==== Sys2Proof/Machine/Values.lean ====
section
/-! DEFINITION. What a read of each object returns (R322, R326, R327, R346, R369, R392, R406, R458, R459, R467, R468): the value that the
state holds for it, or one that follows from the rest of the state. -/

namespace Sys2Proof.Machine

/-! ## Types (R322) -/

/-- The code of a type. -/
def ObjType.code : ObjType → Nat
  | .u8 => 1
  | .u16 => 2
  | .u32 => 3
  | .u64 => 4
  | .f32 => 6
  | .str => 7
  | .blob => 8

/-- The encoded length of a numeric type; none for STR and BLOB. -/
def ObjType.size : ObjType → Option Nat
  | .u8 => some 1
  | .u16 => some 2
  | .u32 => some 4
  | .u64 => some 8
  | .f32 => some 4
  | .str => none
  | .blob => none

/-- The longest value of a type. -/
def ObjType.longest : ObjType → Nat
  | .str => 256
  | .blob => 65536
  | t => t.size.getD 0

/-- The code of an access right (R323). -/
def Access.code : Access → Nat
  | .ro => 1
  | .wo => 3
  | .rws => 4

/-- A value's encoding, numbers little-endian (R9, R322). -/
def ObjType.encode (t : ObjType) (v : Val) : Bytes :=
  match t.size, v with
  | some k, .num n => leBytes k n
  | some k, .blob _ => zeroBytes k
  | none, .num _ => []
  | none, .blob bs => bs

/-- The value that bytes of a legal length encode. -/
def ObjType.decode (t : ObjType) (bs : Bytes) : Val :=
  match t.size with
  | some _ => .num (leNat bs)
  | none => .blob bs

/-- Whether a value's length is that of its type. -/
def ObjType.lengthOk (t : ObjType) (bs : Bytes) : Bool :=
  match t.size with
  | some k => bs.length == k
  | none => decide (bs.length ≤ t.longest)

/-! ## Values that follow from the state -/

/-- The ASCII bytes of a string. -/
def asciiBytes (x : String) : Bytes := x.toList.map fun c => BitVec.ofNat 8 c.toNat

/-- DEV_PART of a variant (R327). -/
def partName (variant : Nat) : String :=
  match variant with
  | 1 => "KJM-A22"
  | 2 => "KJM-B20"
  | _ => "KJM-C17"

/-- A Scribe entry's 32 bytes (R459). -/
def Event.encode (e : Event) : Bytes :=
  leBytes 4 e.seq.toNat ++ leBytes 4 e.stamp.toNat ++ leBytes 2 e.code.toNat ++ leBytes 1 e.args.length ++ zeroBytes 1 ++
    leBytes 2 e.boot.toNat ++ leBytes 2 e.supp.toNat ++ padTo 16 (e.args.flatMap fun a => leBytes 4 a.toNat)

/-- An area's entries, oldest first (R467). -/
def areaBytes (es : List Event) : Bytes := es.flatMap Event.encode

/-- RAISE_SOFT: a count and 8-byte entries (R369). -/
def softBytes (xs : List (Byte × Half × Word)) : Bytes :=
  leBytes 4 xs.length ++ xs.flatMap fun (kind, i, v) => [kind, 0] ++ leBytes 2 i.toNat ++ leBytes 4 v.toNat

/-- A session place as SESS_INFO gives it (R346). -/
def sessInfo (s : State) (x : Session) : Bytes :=
  if x.phase = 0 then zeroBytes 16
  else leBytes 4 x.id.toNat ++ leBytes 1 x.phase ++ leBytes 1 x.chan ++ leBytes 1 (if x.phase = 2 then x.root else 0xFF) ++
    zeroBytes 1 ++ leBytes 4 x.lastSeq.toNat ++ leBytes 4 ((s.uptime - x.lastAt.toNat) / 1_000_000)

/-- The session of a place. -/
def State.session (s : State) (i : Nat) : Session := look {} s.dict.sessions i

/-- SESS_LOCK_LEFT (R340, R346). -/
def State.lockLeft (s : State) : Nat :=
  match s.dict.locked with
  | some t => 60_000 - (s.uptime - t.toNat) / 1_000_000
  | none => 0

/-- The bytes of the runtime image that runs, which a LOAD_FW that fails does not change; none where another image does (R372, R392). -/
def State.runtimeBytes (s : State) : Option Bytes := if s.fw.image = .runtime then some s.fw.runs else none

/-- An entry of FW_TRACE_DICT: class, argument count, code, and a name of 28 bytes padded with zeros (R382). -/
def traceEntry (e : Byte × Byte × Half × Bytes) : Bytes :=
  [e.1, e.2.1] ++ leBytes 2 e.2.2.1.toNat ++ padTo 28 e.2.2.2

/-- An entry of SCR_CODES, in the form of FW_TRACE_DICT with the code's channel for its class (R465). -/
def codeEntry (code count : Nat) (name : Bytes) : Bytes :=
  traceEntry (BitVec.ofNat 8 (code / 0x1000), BitVec.ofNat 8 count, BitVec.ofNat 16 code, name)

/-- SCR_CODES: every code that the running runtime image can record, with its argument count and its name: those that R465 lists, then the others
(R465; log 22). -/
def State.codes (s : State) : Bytes :=
  match s.runtimeBytes with
  | some _ => listed.flatMap (fun e => codeEntry e.1 e.2.2 (asciiBytes e.2.1)) ++
      Unlisted.all.flatMap fun u => codeEntry u.code u.argCount (Config.eventName u.ctorIdx)
  | none => []

/-- FW_TRACE_DICT: the entries that the running runtime image carries (R382). -/
def State.traceDict (s : State) : Bytes :=
  match s.runtimeBytes with
  | some bs => (Config.traceCodes bs).flatMap traceEntry
  | none => []

/-- The areas as they read: in recovery mode the ROM serves the privileged ones from flash, and the general area is empty (R466). -/
def State.areas (s : State) : Scribe :=
  let x := s.scribe
  if s.fw.image = .recovery then { x with general := [], first := x.flashFirst, last := x.flashLast } else x

/-- What a read of an object returns (R326). -/
def State.read (s : State) (i sub : Nat) : Val :=
  match i with
  | 0x1000 /- DEV_NAME -/ => .blob (asciiBytes "Kidjaem")
  | 0x1001 /- DEV_PART -/ => .blob (asciiBytes (partName s.fuses.variant))
  | 0x1002 /- DEV_VARIANT -/ => .num s.fuses.variant
  | 0x1003 /- DEV_SERIAL -/ => .num s.fuses.serial.toNat
  | 0x1004 /- DEV_STEPPING -/ => .num s.fuses.stepping
  | 0x1006 /- DEV_UPTIME -/ => .num s.uptime
  | 0x1013 /- COM_ADDR -/ => .blob (addrBytes s.firstAddr ++ addrBytes s.secondAddr)
  | 0x2000 /- FUSE_ARITH_MAX -/ => .num s.fuses.arith
  | 0x2001 /- FUSE_POWER_MAX -/ => .num s.fuses.watts
  | 0x2002 /- FUSE_SPARE_USED -/ => .num (s.fuses.spare.length + s.fuses.lanes.length)
  | 0x2014 /- RAISE_SOFT -/ => .blob (softBytes s.raising.soft)
  | 0x5000 /- MEM_GRADE_FUSED, MEM_GRADE_SET, MEM_GRADE_RUN -/ => if sub = 1 then .num s.fuses.grades else s.obj i sub
  | 0x6002 /- PWR_CAP -/ => if s.getN i sub = 0 then .num s.fuses.watts else s.obj i sub
  | 0x600B /- PWR_LAST_OFF -/ => .num s.pins.lastOff
  | 0x7006 /- SCR_CLEAR -/ => .num 0
  | 0x7007 /- SCR_CODES -/ => .blob s.codes
  | 0x7010 /- SCR_GEN -/ => .blob (areaBytes ((s.areas.general.drop (1024 * (sub - 1))).take 1024))
  | 0x7020 /- SCR_FIRST -/ => .blob (areaBytes (look [] s.areas.first sub))
  | 0x7021 /- SCR_LAST -/ => .blob (areaBytes (look [] s.areas.last sub))
  | 0x7101 /- FW_BANK_VER -/ => .num (match s.fw.bank (sub - 1) with
    | some bs => imgVersion bs
    | none => 0)
  | 0x7105 /- FW_CONFIRM -/ => .num 0
  | 0x7106 /- FW_UPD_ARM -/ => .num s.armLeft
  | 0x7107 /- FW_ROLLBACK -/ => .num s.fuses.rollback
  | 0x7113 /- FW_RESTART -/ => .num 0
  | 0x7116 /- FW_TRACE_DICT -/ => .blob s.traceDict
  | 0x7117 /- FW_WARM -/ => .num 0
  | 0x8002 /- SESS_INFO -/ => .blob (sessInfo s (s.session (sub - 1)))
  | 0x8004 /- SESS_LOCK_LEFT -/ => .num s.lockLeft
  | 0x8100 /- SEC_ID_PUB -/ => .blob identityPublic
  | 0x8101 /- SEC_ID_CERT -/ => .blob (identityCert s)
  | 0x8102 /- SEC_IDX_NEXT -/ => .num s.sec.next
  | 0x8103 /- SEC_IDX_TOP -/ => .num (s.sec.top.getD 0)
  | 0x8104 /- SEC_IDX_FLOOR -/ => .num s.sec.floor
  | 0x8105 /- SEC_IDX_LEFT -/ => .num (2 ^ 40 - s.sec.next)
  | 0x8110 /- SEC_IMG_ROOT -/ => .blob (imageRootOf (sub - 1))
  | _ => s.obj i sub

/-- The bytes that a read of an object returns. -/
def State.readBytes (s : State) (r : ObjRow) (sub : Nat) : Bytes := r.type.encode (s.read r.index sub)

end Sys2Proof.Machine
end

