-- ==== Sys2Proof/Machine/Dictionary.lean ====
section
/-! DEFINITION. The Phophor dictionary as it serves a message (R321 to R346): abort codes in their order, sessions, segments, snapshots,
the checks and effects of each object's write, and responses. -/

namespace Sys2Proof.Machine

/-! ## Abort codes (R336) -/

/-- PROTOCOL. -/
abbrev abProtocol : Nat := 0x0601_0000
/-- MALFORMED. -/
abbrev abMalformed : Nat := 0x0602_0000
/-- SESSION_UNKNOWN. -/
abbrev abUnknown : Nat := 0x0501_0000
/-- SESSION_SEQUENCE. -/
abbrev abSequence : Nat := 0x0502_0000
/-- PROOF_INVALID. -/
abbrev abProof : Nat := 0x0503_0000
/-- SESSION_LIMIT. -/
abbrev abLimit : Nat := 0x0504_0000
/-- LOCKED. -/
abbrev abLocked : Nat := 0x0505_0000
/-- SEGMENT. -/
abbrev abSegment : Nat := 0x0603_0000
/-- NO_OBJECT. -/
abbrev abNoObject : Nat := 0x0101_0000
/-- NO_SUB. -/
abbrev abNoSub : Nat := 0x0102_0000
/-- NOT_IN_SUBSET. -/
abbrev abSubset : Nat := 0x0204_0000
/-- READ_ONLY. -/
abbrev abReadOnly : Nat := 0x0201_0000
/-- WRITE_ONLY. -/
abbrev abWriteOnly : Nat := 0x0202_0000
/-- NEEDS_SESSION. -/
abbrev abNeedsSession : Nat := 0x0203_0000
/-- TYPE_LENGTH. -/
abbrev abTypeLength : Nat := 0x0301_0000
/-- RANGE. -/
abbrev abRange : Nat := 0x0302_0000
/-- BLOB_LAYOUT. -/
abbrev abLayout : Nat := 0x0303_0000
/-- STATE_CONFLICT. -/
abbrev abConflict : Nat := 0x0401_0000
/-- BUSY. -/
abbrev abBusy : Nat := 0x0402_0000
/-- STORAGE. -/
abbrev abStorage : Nat := 0x0701_0000

/-! ## Outcomes and responses (R331 to R333) -/

/-- What serving a request gives: the data, LAST flag and total of its response, an abort code, or no response yet. -/
inductive Result where
  | ok (data : Bytes) (last : Bool) (total : Option Nat)
  | abort (code : Nat)
  | later
  deriving DecidableEq, Repr

/-- What the module does once the response has been sent: nothing; sessions close, every one or those proven under a slot (R399); a
new COM_UDP_PORT (R327); a restart of the management core (R374); a warm reset (R426). -/
inductive After where
  | nothing
  | close (slot : Option Nat)
  | udpPort (n : Nat)
  | restart
  | warm
  deriving DecidableEq, Repr

/-- A response without data. -/
def Result.done : Result := .ok [] false none

/-- The bytes of a response; a version that does not exist is answered in the form of version 1 (R331 to R333, R336; log 63). -/
def respond (m : Msg) (r : Result) : Bytes :=
  let (op, data, flags, total) : Byte × Bytes × Nat × Option Nat := match r with
    | .ok data last total => (m.op ||| 0x80, data, if last then 1 else 0, total)
    | .abort code => (0xFF, leBytes 4 code, 0, none)
    | .later => (0xFF, [], 0, none)
  let head (version flags : Nat) : Bytes :=
    leBytes 1 version ++ [op] ++ leBytes 2 m.transaction.toNat ++ leBytes 2 m.index.toNat ++ [m.sub] ++ leBytes 1 flags
  if m.version = 2 then
    let offset := if op = 0x81 then m.offset.toNat else Config.replyField 1 m.offset.toNat
    head 2 flags ++ leBytes 4 m.session.toNat ++ leBytes 4 (Config.replyField 0 m.sequence.toNat) ++ leBytes 4 offset ++
      leBytes 4 (total.getD (Config.replyField 2 m.total.toNat)) ++ data
  else head 1 0 ++ data

/-! ## Message form (R331 to R333, R336) -/

/-- Whether a version 1 message is malformed. -/
def malformed1 (m : Msg) : Bool :=
  m.short || m.flags != 0 || !(m.op == 1 || m.op == 2) || (m.op == 1 && !m.data.isEmpty) || decide (1024 < m.data.length)

/-- Whether a segment's place does not fit its total (DEDUCED, log 65). -/
def badSegment (m : Msg) : Bool :=
  let stop := m.offset.toNat + m.data.length
  if m.flags == 1 then stop != m.total.toNat else decide (m.total.toNat ≤ stop)

/-- Whether a version 2 message is malformed. -/
def malformed2 (m : Msg) : Bool :=
  m.short || !([1, 2, 3, 0x10, 0x11, 0x12].contains m.op) || decide (1 < m.flags.toNat) || decide (1024 < m.data.length) ||
    (!([2, 0x11].contains m.op) && !m.data.isEmpty) ||
    (m.op == 0x10 && !(m.index == 0 && m.sub == 0 && m.session == 0)) || ([2, 0x11].contains m.op && badSegment m)

/-! ## Sessions (R338 to R342) -/

/-- The state with a session place replaced. -/
def State.setSession (s : State) (i : Nat) (x : Session) : State :=
  { s with dict := { s.dict with sessions := put {} s.dict.sessions i x } }

/-- The place of the session that a message names, of its channel and source (R341). -/
def State.findSession (s : State) (h : Holder) (id : Word) : Option Nat :=
  (List.range 8).find? fun i =>
    let x := s.session i
    x.phase != 0 && x.id == id && x.chan == h.chan && x.addr == h.addr && x.port == h.port

/-- A session closes, with its partial write and its snapshots (R342). -/
def closeSession (s : State) (i : Nat) : State :=
  let id := (s.session i).id
  let s := s.setSession i {}
  { s with dict := { s.dict with
      partials := s.dict.partials.filter fun y => y.holder.session != id
      snaps := s.dict.snaps.filter fun y => y.holder.session != id } }

/-- The sessions of some places close. -/
def closeWhere (s : State) (p : Session → Bool) : State :=
  upTo 8 (fun i s => if (s.session i).phase ≠ 0 ∧ p (s.session i) = true then closeSession s i else s) s

/-- SESSION_OPEN: a PENDING session with a fresh identifier and nonce, within the limits and outside a lockout (R338, R340). -/
def openSession (s : State) (h : Holder) : State × Result :=
  let pend := (List.range 8).countP fun i => (s.session i).phase == 1 && (s.session i).chan == h.chan
  match (List.range 8).find? fun i => (s.session i).phase == 0 with
  | none => (s, .abort abLimit)
  | some i =>
    if 2 ≤ pend then (s, .abort abLimit)
    else if s.dict.locked.isSome then (s, .abort abLocked)
    else
      let (n, s) := s.draw
      let taken (id : Word) : Bool := id == 0 || (List.range 8).any fun j => (s.session j).phase != 0 && (s.session j).id == id
      let id := (((List.range 10).map fun k => BitVec.ofNat 32 (n + k)).find? fun id => !taken id).getD 0
      let (nonce, s) := s.drawBytes 32
      (s.setSession i { phase := 1, id, chan := h.chan, addr := h.addr, port := h.port, nonce, lastAt := s.clock.up },
        .ok (leBytes 4 id.toNat ++ nonce ++ leBytes 4 30_000) false none)

/-- The 64-byte message that a proof signs (R338). -/
def proofMessage (s : State) (x : Session) : Bytes :=
  asciiBytes "PHOSESS1" ++ leBytes 8 s.fuses.serial.toNat ++ x.nonce ++ leBytes 4 x.id.toNat ++ leBytes 4 x.chan ++ zeroBytes 8

/-- Whether a whole proof is valid for a session (R338, R339). -/
def proofValid (s : State) (x : Session) (proof : Bytes) : Bool :=
  let slot := field proof 0 1
  let root := if slot < 8 then s.sessRoot slot else []
  proof.length == 2824 && zeros proof 1 3 && !root.isEmpty && !s.dict.usedNonces.contains x.nonce && x.phase == 1 &&
    Config.xmssVerify root (proofMessage s x) (proof.drop 4)

/-- A failed proof is counted; the eighth within 60 s locks SESSION_OPEN for 60 s (R339, R340). -/
def noteFailure (s : State) : State :=
  let s := s.count Obj.sessFails 0
  let fails := (s.dict.fails.filter fun t => decide (s.uptime < t.toNat + 60_000_000_000)) ++ [s.clock.up]
  let before := s.dict.locked
  let s := { s with dict := { s.dict with fails, locked := if 8 ≤ fails.length then some s.clock.up else before } }
  if 8 ≤ fails.length ∧ before.isNone then s.record 0x1010 [fails.length] else s

/-- A whole proof is verified: the session opens, or closes with its nonce retired (R339). -/
def prove (s : State) (i : Nat) (proof : Bytes) : State × Result :=
  let x := s.session i
  let ok := proofValid s x proof
  let s := { s with dict := { s.dict with usedNonces := s.dict.usedNonces ++ [x.nonce] } }
  if ok then (s.setSession i { x with phase := 2, root := field proof 0 1 }, .done)
  else (noteFailure (closeSession s i), .abort abProof)

/-! ## Segments and snapshots (R334, R335) -/

/-- The state without a holder's partial write. -/
def dropPartial (s : State) (h : Holder) : State :=
  { s with dict := { s.dict with partials := s.dict.partials.filter (·.holder != h) } }

/-- The key of the object that a message names. -/
def keyOf (m : Msg) : Nat := objKey m.index.toNat m.sub.toNat

/-- A segment of a value or of a proof: the whole value at LAST, nothing while it is incomplete, or a broken order (R334). -/
def takeSegment (s : State) (h : Holder) (m : Msg) : State × (Bool × Option Bytes) :=
  let proof := m.op == 0x11
  let held := s.dict.partials.find? (·.holder == h)
  let s := dropPartial s h
  let more (bytes : Bytes) : State × (Bool × Option Bytes) :=
    if m.flags = 1 then (s, true, some bytes)
    else
      let y : Partial := ⟨h, m.transaction, proof, keyOf m, m.total.toNat, bytes⟩
      ({ s with dict := { s.dict with partials := s.dict.partials ++ [y] } }, true, none)
  if m.offset = 0 then more m.data
  else match held with
    | none => (s, false, none)
    | some y =>
      if y.transaction = m.transaction ∧ y.proof = proof ∧ y.key = keyOf m ∧ y.total = m.total.toNat ∧
          y.bytes.length = m.offset.toNat then more (y.bytes ++ m.data)
      else (s, false, none)

/-! ## Objects (R321, R323, R336) -/

/-- The object that a message names, or NO_OBJECT or NO_SUB. -/
def findObject (m : Msg) : Nat ⊕ ObjRow :=
  match objRow m.index.toNat m.sub.toNat with
  | some r => .inr r
  | none => .inl (if objRows.any (·.index == m.index.toNat) then abNoSub else abNoObject)

/-- Whether an object lies in the recovery subset (R345). -/
def inSubset (r : ObjRow) : Bool :=
  r.access == .ro && ((decide (0x1000 ≤ r.index) && decide (r.index < 0x1100)) ||
    (decide (0x2000 ≤ r.index) && decide (r.index < 0x3000)) || (decide (0x7000 ≤ r.index) && decide (r.index < 0x8000)))

/-- Who writes: the channel, the root slot of its OPEN session, and whether it writes in a session at all, which may be PENDING. -/
structure Writer where
  chan : Nat
  root : Option Nat
  inSession : Bool

/-- Whether a write is the claim of slot 0: one without a session, which a session that has not been proven is not (R399). -/
def isClaim (s : State) (w : Writer) (r : ObjRow) (sub : Nat) : Bool :=
  r.index == Obj.secSessRoot && sub == 1 && !w.inSession && decide (1 ≤ w.chan) && decide (w.chan ≤ 4) && s.unclaimed

/-- The access that a write lacks, if any: READ_ONLY, or NEEDS_SESSION (R323, R399, R404). -/
def writeBarred (s : State) (w : Writer) (r : ObjRow) (sub : Nat) : Option Nat :=
  let owner := r.index == Obj.secSessRoot || r.index == Obj.secMoved
  match r.access with
  | .ro => some abReadOnly
  | .wo => none
  | .rws =>
    if isClaim s w r sub then none
    else if w.root.isNone || (owner && w.root != some 0) then some abNeedsSession else none

/-- The first object after an index and sub, in ascending order, of those that `keep` leaves (R333). -/
def nextObject (keep : ObjRow → Bool) (i sub : Nat) : Option (ObjRow × Nat) :=
  (objRows.filter keep).findSome? fun r =>
    if i < r.index then some (r, r.lo)
    else if i = r.index ∧ sub < r.hi then some (r, max r.lo (sub + 1))
    else none

/-- The data of a NEXT response (R333). -/
def nextData (s : State) (r : ObjRow) (sub : Nat) : Bytes :=
  leBytes 2 r.index ++ leBytes 1 sub ++ leBytes 1 r.type.code ++ leBytes 1 r.access.code ++ zeroBytes 3 ++
    leBytes 4 (s.readBytes r sub).length

/-- NEXT: the next existing object; no data and total 0 after the last. -/
def serveNext (s : State) (keep : ObjRow → Bool) (m : Msg) : Result :=
  match nextObject keep m.index.toNat m.sub.toNat with
  | some (r, sub) => .ok (nextData s r sub) false none
  | none => .ok [] false (some 0)

/-- What a read does beyond its value: CLK_OVERRUN is cleared (R480). -/
def afterRead (s : State) (r : ObjRow) : State := if r.index = Obj.clkOverrun then s.setN Obj.clkOverrun 0 0 else s

/-- READ in version 2: offset 0 takes a snapshot; a later offset reads it (R333, R335). `keep` is the recovery subset, where it
applies. -/
def serveRead (s : State) (h : Holder) (keep : ObjRow → Bool) (m : Msg) : State × Result :=
  let piece (bs : Bytes) : Result :=
    .ok (sub bs m.offset.toNat 1024) (decide (bs.length ≤ m.offset.toNat + 1024)) (some bs.length)
  let mine (y : Snap) : Bool := y.holder == h && y.transaction == m.transaction
  if m.offset ≠ 0 then
    match s.dict.snaps.find? fun y => mine y && y.key == keyOf m with
    | none => (s, .abort abSegment)
    | some y => (s, piece y.bytes)
  else match findObject m with
    | .inl e => (s, .abort e)
    | .inr r =>
      if !keep r then (s, .abort abSubset)
      else if r.access = .wo then (s, .abort abWriteOnly)
      else
        let bs := s.readBytes r m.sub.toNat
        let y : Snap := ⟨h, m.transaction, keyOf m, bs⟩
        (afterRead { s with dict := { s.dict with snaps := s.dict.snaps.filter (!mine ·) ++ [y] } } r, piece bs)

/-- READ in version 1 (R331): a longer value needs version 2 (SEGMENT; DEDUCED, log 65). -/
def serveRead1 (s : State) (m : Msg) : State × Result :=
  match findObject m with
  | .inl e => (s, .abort e)
  | .inr r =>
    if r.access = .wo then (s, .abort abWriteOnly)
    else
      let bs := s.readBytes r m.sub.toNat
      if 1024 < bs.length then (s, .abort abSegment) else (afterRead s r, .ok bs false none)

/-! ## Writes: the checks of each object (R323, R336) -/

/-- Objects that are written only while their partition is ABSENT (R184, R259, R303). -/
def absentOnly (i : Nat) : Bool :=
  [Obj.partRows, Obj.partOwner, Obj.partCtxBase, Obj.partCtxCount, Obj.partQuota, Obj.partPool, Obj.partPlan, Obj.partWindows,
    Obj.partWinpages, Obj.trussCtx].contains i

/-- Whether a number lies in an object's range (R170, R303, R323, R398, R421, R446, R474). -/
def inRange (s : State) (r : ObjRow) (n : Nat) : Bool :=
  decide (r.least ≤ n) && decide (n ≤ r.most) &&
    (r.index != Obj.partOwner || decide (n ≤ 3) || n == 0xFF) && (r.index != Obj.jobEpoch || decide (n ≤ 0xFFF)) &&
    (r.index != Obj.memGradeSet || ([8533, 9600, 10667].contains n && decide (n ≤ s.fuses.grades))) &&
    (r.index != Obj.pwrCap || (decide (300 ≤ n) && decide (n ≤ s.fuses.watts))) &&
    (r.index != Obj.clkTimeSet || n % 1_000_000_000 == 0) && (r.index != Obj.secImgRevoked || decide (n ≤ 15))

/-- Whether a list holds no number twice. -/
def distinct : List Nat → Bool
  | [] => true
  | x :: xs => !xs.contains x && distinct xs

/-- The cabling plan's layout; an empty one stands for the default plan (R288). -/
def planOk (s : State) (bs : Bytes) : Bool :=
  let port (i n : Nat) : Nat := field bs (16 + 12 * i + 2 * n) 2
  bs.isEmpty ||
    (bs.length == 784 && field bs 0 4 == 0x4E4C_5054 && field bs 4 1 == 1 && field bs 5 1 == s.rack && zeros bs 6 2 &&
      crcAt bs 8 == BitVec.ofNat 32 (field bs 8 4) && zeros bs 12 4 &&
      ((List.range 64).all fun i =>
        let ps := (List.range 6).map (port i)
        ps.all (· == 0xFFFF) || !ps.contains 0xFFFF) &&
      (List.range 6).all fun n => distinct (((List.range 64).map fun i => port i n).filter (· != 0xFFFF)))

/-- A job map's layout, which names this module exactly once (R295). -/
def mapOk (s : State) (bs : Bytes) : Bool :=
  let n := field bs 0 1 * field bs 1 1 * field bs 2 1
  decide (1 ≤ n) && decide (n ≤ 1024) && zeros bs 3 1 && bs.length == 4 + 2 * n &&
    ((List.range n).countP fun k => field bs (4 + 2 * k) 1 == s.rack && some (field bs (5 + 2 * k) 1) == s.ownIndex) == 1

/-- The layout of SCR_RATE_OVR: up to 64 entries, no code twice, rates from 1 to 1,000 (R468). -/
def ratesOk (bs : Bytes) : Bool :=
  let es := pieces 4 64 bs
  bs.length % 4 == 0 && decide (bs.length ≤ 256) && distinct (es.map fun e => field e 0 2) &&
    es.all fun e => decide (1 ≤ field e 2 2) && decide (field e 2 2 ≤ 1000)

/-- The layout of a byte string, where one is defined (R288, R295, R399, R401, R468). -/
def blobOk (s : State) (i : Nat) (bs : Bytes) : Bool :=
  if i = Obj.routePlan then planOk s bs
  else if i = Obj.routeRackaxis then bs.isEmpty || (bs.length == 256 && bs.all fun b => decide (b.toNat ≤ 3))
  else if i = Obj.jobMap then mapOk s bs
  else if i = Obj.scrRateOvr then ratesOk bs
  else if i = Obj.secSessRoot then bs.isEmpty || bs.take 4 == xmssOid
  else if i = Obj.secQuoteReq then bs.length == 32
  else true

/-- Whether a write is legal in itself but not in the present state (R184, R259, R295, R303, R388, R397, R398, R421). A JOB_ID conflicts where another
partition's JOB_ID holds the number; a job that another partition's step still runs under a JOB_ID rewritten since does not count (DESIGN CHOICE,
log 64). -/
def conflicts (s : State) (i sub : Nat) (v : Val) : Bool :=
  let n := match v with
    | .num n => n
    | .blob _ => 0
  (absentOnly i && s.pstate (sub - 1) != psAbsent) ||
    (i == Obj.jobId && n != 0xFFFF && (List.range 8).any fun p => p + 1 != sub && s.getN Obj.jobId (p + 1) == n) ||
    (i == Obj.jobEpoch && n != s.getN Obj.jobEpoch sub &&
      (s.part (sub - 1)).epochs.any fun e => e.1 == n && decide (s.uptime < e.2.toNat + 1_000_000_000)) ||
    (i == Obj.fwConfirm && s.updState != usTrial) || (i == Obj.secImgRevoked && revokeRefused s n) ||
    (i == Obj.secQuoteReq && keySpent s)

/-- The first check that a write's value fails (R336, orders 15 to 19). -/
def valueFails (s : State) (r : ObjRow) (sub : Nat) (bs : Bytes) : Option Nat :=
  let v := r.type.decode bs
  let ranged := match v with
    | .num n => inRange s r n
    | .blob _ => true
  if !r.type.lengthOk bs || (r.index == Obj.secSessRoot && !(bs.length == 0 || bs.length == 68)) then some abTypeLength
  else if !ranged then some abRange
  else if !blobOk s r.index bs then some abLayout
  else if conflicts s r.index sub v then some abConflict
  else if r.index == Obj.secQuoteReq && quoteBusy s then some abBusy
  else none

/-! ## Writes: their effects -/

/-- The value is stored, and the Scribe's buckets follow a change of their rates; a write to the settings store during a trial is the candidate's alone (R326, R387, R464). -/
def storeValue (s : State) (i sub : Nat) (v : Val) : State :=
  let base := s.getN Obj.scrRate 0
  let ovr := s.getB Obj.scrRateOvr 0
  let s := s.setObj i sub v
  let s := if i = Obj.scrRate ∨ i = Obj.scrRateOvr then rateChanged s base ovr else s
  if stored (objKey i sub) ∧ s.fw.confirmed.isSome then { s with fw := { s.fw with trialWrites := s.fw.trialWrites + 1 } } else s

/-- JOB_EPOCH takes another value: collectives abort, sequences start again, and JOB_WAIT is cleared (R256, R257, R420, R421). -/
def changeEpoch (s : State) (p n : Nat) : State :=
  if s.getN Obj.jobEpoch (p + 1) = n then s
  else
    let s := abortColls (retireEpoch s p) p csEpoch
    let s := s.setPart p { s.part p with seqNext := [], seqLast := [] }
    (s.setN Obj.jobEpoch (p + 1) n).setN Obj.jobWait (p + 1) 0

/-- SCR_CLEAR: the named areas are emptied, the clear is recorded, and both are persisted (R467). What the recorder took before the clear is over, so
SCR_CLEARED goes before no entry of its cycle (R460). -/
def clearAreas (s : State) (mask root : Nat) : State :=
  let x := s.scribe
  let chans := [1, 2, 3, 4].filter (bit mask ·)
  let removed := (if bit mask 0 then x.general.length else 0) +
    (chans.map fun c => (look [] x.first c).length + (look [] x.last c).length).foldl (· + ·) 0
  let y := { x with
    posted := []
    general := if bit mask 0 then [] else x.general
    first := x.first.filter fun e => !chans.contains e.1
    last := x.last.filter fun e => !chans.contains e.1 }
  let s := { s with scribe := y }
  let s := if bit mask 0 then s.setN Obj.scrGenLost 0 0 else s
  flushScribe (s.record 0x1020 [mask, root, removed])

/-- A write of a number that passed its checks. -/
def writeNumber (s : State) (w : Writer) (i sub n : Nat) : State × After :=
  if i = Obj.comUdpPort then (s, .udpPort n)
  else if i = Obj.jobEpoch then (changeEpoch s (sub - 1) n, .nothing)
  else if i = Obj.memGradeSet then (if s.getN i sub = n then s else voidRecord (s.setN i sub n), .nothing)
  else if i = Obj.pwrCap then (settleLimit (s.setN i sub n), .nothing)
  else if i = Obj.clkTimeSet then
    ({ s.setN i sub n with clock := { s.clock with setTo := some (BitVec.ofNat 64 n) } }, .nothing)
  else if i = Obj.scrClear then (clearAreas s n (w.root.getD 0xFF), .nothing)
  else if i = Obj.fwConfirm then (if n = 1 then confirmCandidate s else rejectCandidate s, .nothing)
  else if i = Obj.fwRestart then (s, .restart)
  else if i = Obj.fwWarm then (s, .warm)
  else if i = Obj.fwUpdArm then ({ s with fw := { s.fw with armed := some (s.clock.up, n) } }, .nothing)
  else if i = Obj.secImgRevoked then (revoke s n, .nothing)
  else (storeValue s i sub (.num n), .nothing)

/-- A write of a byte string that passed its checks (R288, R399, R468). -/
def writeBlob (s : State) (w : Writer) (i sub : Nat) (bs : Bytes) : State × After :=
  if i = Obj.secSessRoot then
    let slot := sub - 1
    let changed := s.sessRoot slot ≠ bs
    (writeRoot s slot (w.root.getD 0xFF) bs,
      if changed then .close (if slot = 0 ∧ bs.isEmpty then none else some slot) else .nothing)
  else (storeValue s i sub (.blob bs), .nothing)

/-- Whether a value is to persist in module flash: its object is kept across a cold reset and can be written, and it does not lie in the key store, as
SEC_IMG_REVOKED does (R336, R387, R398, R399; log 108). -/
def persists (r : ObjRow) : Bool := r.cold && r.access != .ro && r.index != Obj.secImgRevoked

/-- A whole value is written (R336). -/
def writeValue (s : State) (h : Holder) (w : Writer) (m : Msg) (bs : Bytes) : State × Result × After :=
  match findObject m with
  | .inl e => (s, .abort e, .nothing)
  | .inr r =>
    let sub := m.sub.toNat
    match writeBarred s w r sub with
    | some e => (s, .abort e, .nothing)
    | none =>
      match valueFails s r sub bs with
      | some e =>
        let spent := r.index = Obj.secQuoteReq ∧ e = abConflict
        (if spent then s.record 0x1014 [2] else s, .abort e, .nothing)
      | none =>
        if m.noFlash ∧ persists r then (s, .abort abStorage, .nothing)
        else if r.index = Obj.secQuoteReq then (beginQuote s bs (h, m), .later, .nothing)
        else match r.type.decode bs with
          | .num n => match writeNumber s w r.index sub n with
            | (s, a) => (s, .done, a)
          | .blob bs => match writeBlob s w r.index sub bs with
            | (s, a) => (s, .done, a)

/-- WRITE: a segment is checked for its object and access; the last one writes the value (R334, R336). -/
def serveWrite (s : State) (h : Holder) (w : Writer) (m : Msg) : State × Result × After :=
  match takeSegment s h m with
  | (s, false, _) => (s, .abort abSegment, .nothing)
  | (s, true, some bs) => writeValue s h w m bs
  | (s, true, none) =>
    match findObject m with
    | .inl e => (dropPartial s h, .abort e, .nothing)
    | .inr r =>
      match writeBarred s w r m.sub.toNat with
      | some e => (dropPartial s h, .abort e, .nothing)
      | none => (s, .done, .nothing)

/-! ## Serving a request (R325, R331 to R336, R341, R345) -/

/-- A request in version 2 in a session, by its place, or in none, once the checks of sessions have passed. -/
def perform (s : State) (h : Holder) (place : Option Nat) (m : Msg) : State × Result × After :=
  let root := place.bind fun i => if (s.session i).phase = 2 then some (s.session i).root else none
  match m.op.toNat with
  | 1 => match serveRead s h (fun _ => true) m with
    | (s, r) => (s, r, .nothing)
  | 2 => serveWrite s h ⟨h.chan, root, place.isSome⟩ m
  | 3 => (s, serveNext s (fun _ => true) m, .nothing)
  | 0x10 => match openSession s h with
    | (s, r) => (s, r, .nothing)
  | 0x11 => match place with
    | none => (s, .abort abUnknown, .nothing)
    | some i => match takeSegment s h m with
      | (s, false, _) => (s, .abort abSegment, .nothing)
      | (s, true, none) => (s, .done, .nothing)
      | (s, true, some bs) => match prove s i bs with
        | (s, r) => (s, r, .nothing)
  | _ => match place with
    | none => (s, .abort abUnknown, .nothing)
    | some i => (closeSession s i, .done, .nothing)

/-- A request on the recovery subset, where no session can be open: one that names or needs a session fails before its segment's place and its
object are looked at (R336, R345; log 66). -/
def performSubset (s : State) (h : Holder) (m : Msg) : State × Result :=
  if m.version = 2 ∧ (m.session ≠ 0 ∨ m.op = 0x11 ∨ m.op = 0x12) then (s, .abort abUnknown)
  else if m.version = 2 ∧ m.op = 1 then serveRead s h inSubset m
  else if m.version = 2 ∧ m.op = 3 then (s, serveNext s inSubset m)
  else if m.version = 2 ∧ m.op = 2 ∧ m.offset ≠ 0 then (s, .abort abSegment)
  else if m.op = 1 ∨ m.op = 2 then
    match findObject m with
    | .inl e => (s, .abort e)
    | .inr _ => (s, .abort abSubset)
  else (s, .abort abSubset)

/-- Whether the quote that is being signed answers the most recent message of a session. -/
def State.awaitsQuote (s : State) (id : Word) : Bool :=
  match s.sec.signing with
  | some (_, _, some (h, _)) => h.session == id
  | _ => false

/-- A message in the session of place `i`: a repeat receives the kept response; otherwise its sequence is taken, it is performed, and
its response is kept (R341). The result is the response's bytes, none where there is none yet. -/
def inSession (s : State) (h : Holder) (i : Nat) (m : Msg) : State × Option Bytes × After :=
  let x := s.session i
  let s := s.setSession i { x with lastAt := s.clock.up }
  if m.sequence = x.lastSeq ∧ m.transaction = x.lastTrans ∧ x.lastResp ≠ [] then (s, some x.lastResp, .nothing)
  else if m.sequence = x.lastSeq ∧ m.transaction = x.lastTrans ∧ s.awaitsQuote x.id = true then (s, none, .nothing)
  else if m.sequence.toNat ≤ x.lastSeq.toNat then (s, some (respond m (.abort abSequence)), .nothing)
  else
    let s := s.setSession i { s.session i with lastSeq := m.sequence, lastTrans := m.transaction, lastResp := [] }
    match perform s { h with session := x.id } (some i) m with
    | (s, .later, a) => (s, none, a)
    | (s, r, a) =>
      let bs := respond m r
      (if (s.session i).phase = 0 then s else s.setSession i { s.session i with lastResp := bs }, some bs, a)

/-- A request on a channel from a source: its response, and what follows it. -/
def serve (s : State) (h : Holder) (m : Msg) : State × Option Bytes × After :=
  let abort (e : Nat) : State × Option Bytes × After := (s, some (respond m (.abort e)), .nothing)
  let out (x : State × Result × After) : State × Option Bytes × After :=
    (x.1, if x.2.1 = .later then none else some (respond m x.2.1), x.2.2)
  if !(m.version == 1 || m.version == 2) || (m.version == 1 && h.chan == 0 && s.getN Obj.comV1Enable 0 == 0) then abort abProtocol
  else if (if m.version = 1 then malformed1 m else malformed2 m) then abort abMalformed
  else if h.chan = 5 then
    match performSubset s h m with
    | (s, r) => out (s, r, .nothing)
  else if m.version = 1 then
    if m.op = 1 then
      match serveRead1 s m with
      | (s, r) => out (s, r, .nothing)
    else out (writeValue s h ⟨h.chan, none, false⟩ m m.data)
  else if m.session = 0 then out (perform s h none m)
  else match s.findSession h m.session with
    | none => abort abUnknown
    | some i => inSession s h i m

/-! ## What follows a response -/

/-- What the module does once a response has been sent (R327, R374, R399, R426). -/
def settleAfter (s : State) (a : After) : State :=
  match a with
  | .nothing => s
  | .close none => closeWhere s fun _ => true
  | .close (some slot) => closeWhere s fun x => x.phase == 2 && x.root == slot
  | .udpPort n => s.setN Obj.comUdpPort 0 n
  | .restart => restartCore s 4
  | .warm => warmReset s 1

/-- A response counts as an answer, and as an abort where it is one (R327). -/
def countAnswer (s : State) (bs : Bytes) : State :=
  let s := s.count Obj.comRx 0 64
  if field bs 1 1 = 0xFF then s.count Obj.comAborts 0 64 else s

/-- A response is given to its channel: sent from the channel's UDP port, or placed in the mailbox (R327, R330, R344, R345). -/
def deliverTo (s : State) (h : Holder) (bs : Bytes) : State :=
  let s := countAnswer s bs
  if h.chan = 0 then s.send (.phophor h (s.getN Obj.comUdpPort 0) bs)
  else if h.chan = 5 then s.send (.phophor h 23057 bs)
  else
    let n := h.chan - 1
    let y := s.port n
    ((s.setPort n { y with mbRsp := patch (padTo 1280 y.mbRsp) 0 bs }).setR n Reg.mbRspLen bs.length).setR n Reg.mbStatus 2

/-- A request is served, answered, and followed up. -/
def handle (s : State) (h : Holder) (m : Msg) : State :=
  match serve s h m with
  | (s, none, a) => settleAfter s a
  | (s, some bs, a) => settleAfter (deliverTo s h bs) a

end Sys2Proof.Machine
end

