-- ==== Sys2Proof/Machine/Phophor.lean ====
section
/-! DEFINITION. The commands of the dictionary: datagrams at the management and service ports and requests in the mailboxes (R328 to R330,
R344, R345), by the row that each message belongs to; expiries (R334, R335, R340, R342); quotes (R401); and the network rows (R329). -/

namespace Sys2Proof.Machine

/-! ## Which row a message belongs to -/

/-- The rows of the command table that a Phophor message can belong to. -/
inductive Topic where
  | read | write | next | sessionOpen | sessionProve | sessionClose | comUdpPort | jobEpoch | jobId | jobMap | routePlan
  | memGradeSet | pwrCap | clkTimeSet | clkOverrun | secQuoteReq | secSessRoot | secImgRevoked | secMoved | scrClear | confirm
  | reject | fwRestart | fwWarm | fwUpdArm | fwRecover
  deriving DecidableEq, Repr

/-- The topic of a WRITE to an object: that of the object where it has a row of its own. -/
def writeTopic (i sub : Nat) (data : Bytes) : Topic :=
  if i = Obj.comUdpPort then .comUdpPort
  else if i = Obj.jobEpoch then .jobEpoch
  else if i = Obj.jobId then .jobId
  else if i = Obj.jobMap then .jobMap
  else if i = Obj.routePlan then .routePlan
  else if i = Obj.memGradeSet ∧ sub = 2 then .memGradeSet
  else if i = Obj.pwrCap then .pwrCap
  else if i = Obj.clkTimeSet then .clkTimeSet
  else if i = Obj.secQuoteReq then .secQuoteReq
  else if i = Obj.secSessRoot then .secSessRoot
  else if i = Obj.secImgRevoked then .secImgRevoked
  else if i = Obj.secMoved then .secMoved
  else if i = Obj.scrClear then .scrClear
  else if i = Obj.fwConfirm ∧ data = [1] then .confirm
  else if i = Obj.fwConfirm ∧ data = [2] then .reject
  else if i = Obj.fwRestart then .fwRestart
  else if i = Obj.fwWarm then .fwWarm
  else if i = Obj.fwUpdArm then .fwUpdArm
  else if i = Obj.fwRecover then .fwRecover
  else .write

/-- The topic of a message; one that no other row takes, malformed ones among them, is a READ's. -/
def topicOf (m : Msg) : Topic :=
  if m.op = 2 ∧ (m.version = 1 ∨ m.version = 2) then writeTopic m.index.toNat m.sub.toNat m.data
  else if m.op = 1 ∧ m.index.toNat = Obj.clkOverrun then .clkOverrun
  else if m.version ≠ 2 then .read
  else if m.op = 3 then .next
  else if m.op = 0x10 then .sessionOpen
  else if m.op = 0x11 then .sessionProve
  else if m.op = 0x12 then .sessionClose
  else .read

/-! ## Datagrams (R330, R345, R484) -/

/-- Whether an address is link-local, fe80::/10. -/
def linkLocal (a : BitVec 128) : Bool := a.toNat / 2 ^ 118 == 0x3FA

/-- Whether an address is one of the module's at a port (R329, R345). -/
def ownAddr (s : State) (o : Origin) : Bool :=
  o.dstAddr == s.firstAddr || (!o.service && !s.dict.secondGone && o.dstAddr == s.secondAddr)

/-- Whether a datagram is accepted at the UDP port `port` (R330). -/
def accepted (s : State) (o : Origin) (port : Nat) : Bool :=
  ownAddr s o && o.dstPort.toNat == port && linkLocal o.addr && o.sumOk && !o.fragment

/-- Whether the management port is on: a node strap of 0 disables it (R484). -/
def State.mgmtPort (s : State) : Bool := s.serving && s.pins.straps.node != 0

/-- A Phophor datagram: served, or dropped and counted; where nothing serves the port, it is lost (R330, R345). -/
def datagram (s : State) (o : Origin) (m : Msg) : State :=
  let drop := s.count Obj.comDropped 0 64
  if o.service then
    if !s.recovering then s
    else if accepted s o 23057 then handle s ⟨5, o.addr, o.port, 0⟩ m else drop
  else if !s.mgmtPort then s
  else if accepted s o (s.getN Obj.comUdpPort 0) then handle s ⟨0, o.addr, o.port, 0⟩ m else drop

/-- The message of a datagram, where it belongs to the row of topic `t`. -/
def onTopic (t : Topic) (o : Origin) (m : Msg) (s : State) : State := if topicOf m = t then datagram s o m else s

/-! ## The rows of messages -/

/-- OBJECT_READ (R333, R335). -/
def execObjectRead (o : Origin) (m : Msg) (s : State) : Host.Outcome State Fault Refusal := .next (onTopic .read o m s)
/-- OBJECT_WRITE: an object without behaviour of its own (R334). -/
def execObjectWrite (o : Origin) (m : Msg) (s : State) : Host.Outcome State Fault Refusal := .next (onTopic .write o m s)
/-- NEXT (R333). -/
def execNextObject (o : Origin) (m : Msg) (s : State) : Host.Outcome State Fault Refusal := .next (onTopic .next o m s)
/-- SESSION_OPEN (R338, R340). -/
def execSessionOpen (o : Origin) (m : Msg) (s : State) : Host.Outcome State Fault Refusal := .next (onTopic .sessionOpen o m s)
/-- SESSION_PROVE (R338, R339). -/
def execSessionProve (o : Origin) (m : Msg) (s : State) : Host.Outcome State Fault Refusal := .next (onTopic .sessionProve o m s)
/-- SESSION_CLOSE (R342). -/
def execSessionClose (o : Origin) (m : Msg) (s : State) : Host.Outcome State Fault Refusal := .next (onTopic .sessionClose o m s)
/-- COM_UDP_PORT (R327). -/
def execComUdpPort (o : Origin) (m : Msg) (s : State) : Host.Outcome State Fault Refusal := .next (onTopic .comUdpPort o m s)
/-- JOB_EPOCH (R421). -/
def execJobEpoch (o : Origin) (m : Msg) (s : State) : Host.Outcome State Fault Refusal := .next (onTopic .jobEpoch o m s)
/-- JOB_ID (R295). -/
def execJobId (o : Origin) (m : Msg) (s : State) : Host.Outcome State Fault Refusal := .next (onTopic .jobId o m s)
/-- JOB_MAP (R295). -/
def execJobMap (o : Origin) (m : Msg) (s : State) : Host.Outcome State Fault Refusal := .next (onTopic .jobMap o m s)
/-- ROUTE_PLAN (R288). -/
def execRoutePlan (o : Origin) (m : Msg) (s : State) : Host.Outcome State Fault Refusal := .next (onTopic .routePlan o m s)
/-- MEM_GRADE_SET (R170). -/
def execMemGradeSet (o : Origin) (m : Msg) (s : State) : Host.Outcome State Fault Refusal := .next (onTopic .memGradeSet o m s)
/-- PWR_CAP (R446). -/
def execPwrCap (o : Origin) (m : Msg) (s : State) : Host.Outcome State Fault Refusal := .next (onTopic .pwrCap o m s)
/-- CLK_TIME_SET (R474). -/
def execClkTimeSet (o : Origin) (m : Msg) (s : State) : Host.Outcome State Fault Refusal := .next (onTopic .clkTimeSet o m s)
/-- CLK_OVERRUN: its read clears the bits that it returns (R480). -/
def execClkOverrun (o : Origin) (m : Msg) (s : State) : Host.Outcome State Fault Refusal := .next (onTopic .clkOverrun o m s)
/-- SEC_QUOTE_REQ (R401). -/
def execSecQuoteReq (o : Origin) (m : Msg) (s : State) : Host.Outcome State Fault Refusal := .next (onTopic .secQuoteReq o m s)
/-- SEC_SESS_ROOT (R399). -/
def execSecSessRoot (o : Origin) (m : Msg) (s : State) : Host.Outcome State Fault Refusal := .next (onTopic .secSessRoot o m s)
/-- SEC_IMG_REVOKED (R398). -/
def execSecImgRevoked (o : Origin) (m : Msg) (s : State) : Host.Outcome State Fault Refusal := .next (onTopic .secImgRevoked o m s)
/-- SEC_MOVED (R404). -/
def execSecMoved (o : Origin) (m : Msg) (s : State) : Host.Outcome State Fault Refusal := .next (onTopic .secMoved o m s)
/-- SCR_CLEAR (R467). -/
def execScrClear (o : Origin) (m : Msg) (s : State) : Host.Outcome State Fault Refusal := .next (onTopic .scrClear o m s)
/-- CONFIRM (R388). -/
def execConfirm (o : Origin) (m : Msg) (s : State) : Host.Outcome State Fault Refusal := .next (onTopic .confirm o m s)
/-- REJECT (R388). -/
def execReject (o : Origin) (m : Msg) (s : State) : Host.Outcome State Fault Refusal := .next (onTopic .reject o m s)
/-- FW_RESTART (R374). -/
def execFwRestart (o : Origin) (m : Msg) (s : State) : Host.Outcome State Fault Refusal := .next (onTopic .fwRestart o m s)
/-- FW_WARM (R426). -/
def execFwWarm (o : Origin) (m : Msg) (s : State) : Host.Outcome State Fault Refusal := .next (onTopic .fwWarm o m s)
/-- FW_UPD_ARM (R384). -/
def execFwUpdArm (o : Origin) (m : Msg) (s : State) : Host.Outcome State Fault Refusal := .next (onTopic .fwUpdArm o m s)
/-- FW_RECOVER (R389). -/
def execFwRecover (o : Origin) (m : Msg) (s : State) : Host.Outcome State Fault Refusal := .next (onTopic .fwRecover o m s)

/-! ## The mailbox (R344) -/

/-- The message that bytes spell (R331, R332); a string without a version is read in the form of version 1. -/
def parseMsg (bs : Bytes) : Msg :=
  let v := bs.headD 0
  let num (o k w : Nat) : BitVec w := BitVec.ofNat w (field bs o k)
  let n := if v = 2 then 24 else 8
  { version := v, op := num 1 1 8, transaction := num 2 2 16, index := num 4 2 16, sub := num 6 1 8, flags := num 7 1 8
    session := if v = 2 then num 8 4 32 else 0, sequence := if v = 2 then num 12 4 32 else 0
    offset := if v = 2 then num 16 4 32 else 0, total := if v = 2 then num 20 4 32 else 0
    data := bs.drop n, short := decide (bs.length < n), noFlash := false }

/-- MB_CTRL_SEND: a SEND performs the request in MB_REQ; one of a length outside 8 to 1,048 is answered at once with MALFORMED. While BUSY is
set it is discarded (R344). -/
def execMbCtrlSend (n : Fin 4) (value : Word) (noFlash : Bool) (s : State) : Host.Outcome State Fault Refusal :=
  let len := s.getR n Reg.mbReqLen
  let m := { parseMsg ((padTo 1280 (s.port n).mbReq).take len) with noFlash }
  let h : Holder := ⟨n + 1, 0, 0, 0⟩
  .next (
    s.emulated n (.mbCtrlSend n value noFlash) fun s =>
    if !s.hears n Reg.mbCtrl ∨ value ≠ 1 ∨ mailboxHeld s n Reg.mbCtrl then s
    else
      let s := s.setR n Reg.mbStatus 1
      if len < 8 ∨ 1048 < len then deliverTo s h (respond m (.abort abMalformed)) else handle s h m)

/-! ## Expiries (R334, R335, R340, R342) -/

/-- SESSION_IDLE_EXPIRY: a session has had no message for SESS_IDLE seconds (R342). -/
def execSessionIdleExpiry (i : Fin 8) (s : State) : Host.Outcome State Fault Refusal :=
  let x := s.session i
  .next (
    if s.serving ∧ x.phase ≠ 0 ∧ s.getN Obj.sessIdle 0 * 1_000_000_000 ≤ s.uptime - x.lastAt.toNat then closeSession s i else s)

/-- VALIDITY_END: the validity of a PENDING session ends (R339, R342). -/
def execValidityEnd (i : Fin 8) (s : State) : Host.Outcome State Fault Refusal :=
  .next (if s.serving ∧ (s.session i).phase = 1 then closeSession s i else s)

/-- LOCKOUT_END: 60 s have passed since the lockout began (R340). -/
def execLockoutEnd (s : State) : Host.Outcome State Fault Refusal :=
  .next (match s.dict.locked with
    | some t => if t.toNat + 60_000_000_000 ≤ s.uptime then { s with dict := { s.dict with locked := none } } else s
    | none => s)

/-- PARTIAL_WRITE_EXPIRY: 2 s have passed without a segment of partial write `i` (R334). -/
def execPartialWriteExpiry (i : Nat) (s : State) : Host.Outcome State Fault Refusal :=
  .next { s with dict := { s.dict with partials := s.dict.partials.eraseIdx i } }

/-- SNAPSHOT_EXPIRY: 2 s have passed since the last use of snapshot `i` (R335). -/
def execSnapshotExpiry (i : Nat) (s : State) : Host.Outcome State Fault Refusal :=
  .next { s with dict := { s.dict with snaps := s.dict.snaps.eraseIdx i } }

/-! ## Quotes (R401, R403) -/

/-- A finished quote is stored and counted, and the write that asked for it is answered (R401). -/
def storeQuote (s : State) : State :=
  match s.sec.signing with
  | none => s
  | some (i, body, who) =>
    let s := (s.setB Obj.secQuote 0 (body ++ padTo 9893 (Config.identitySign i body))).count Obj.secQuotes 0 64
    let s := { s with sec := { s.sec with signing := none, signed := false } }
    match who with
    | none => s
    | some (h, m) =>
      let bs := respond m .done
      let s := deliverTo s h bs
      match s.findSession h h.session with
      | some j => s.setSession j { s.session j with lastResp := bs }
      | none => s

/-- QUOTE_SIGNED: the signature is finished, from when the next request waits 100 ms, and the quote is stored; during a restart the store waits until
FW_BUSY clears (R401, R403). -/
def execQuoteSigned (s : State) : Host.Outcome State Fault Refusal :=
  .next (
    if s.pins.inReset ∨ s.sec.signing.isNone ∨ s.sec.signed then s
    else
      let s := { s with sec := { s.sec with signed := true, lastQuote := some s.clock.up } }
      if s.fw.busy ∨ s.fw.hung then s else storeQuote s)

/-! ## Neighbor Discovery and echo (R329) -/

/-- NEIGHBOR_DISCOVERY: a solicitation for an address of the module is answered; a second address that is found duplicated is given up
(R329, R330). -/
def execNeighborDiscovery (o : Origin) (target : BitVec 128) (duplicate : Bool) (s : State) : Host.Outcome State Fault Refusal :=
  .next (
    if o.service ∨ !s.mgmtPort then s
    else if o.fragment then s.count Obj.comDropped 0 64
    else if duplicate then
      if target = s.secondAddr ∧ s.dict.secondGone = false then
        { s with dict := { s.dict with secondGone := true } }.note none .duplicateAddress [s.pins.straps.node.toNat]
      else s
    else if target = s.firstAddr ∨ (target = s.secondAddr ∧ s.dict.secondGone = false) then s.send (.neighbor o.addr target)
    else s)

/-- ECHO: an ICMPv6 echo request to an address of the module is answered with its payload (R329, R330). -/
def execEcho (o : Origin) (payload : Bytes) (s : State) : Host.Outcome State Fault Refusal :=
  .next (
    if o.service ∨ !s.mgmtPort then s
    else if o.fragment ∨ !ownAddr s o ∨ !o.sumOk then s.count Obj.comDropped 0 64
    else s.send (.echoReply o.addr payload))

end Sys2Proof.Machine
end

