-- ==== Sys2Proof/Machine/Restart.lean ====
section
/-! DEFINITION. The end of a restart of the management core: what it interrupted, the writes that the host stations kept, and FW_BUSY (R368,
R376 to R378); what passes while no command waits. -/

namespace Sys2Proof.Machine

/-! ## What the restart interrupted -/

/-- A link's own retrain resumes from training (R368). -/
def trainAgain (s : State) (l : Nat) : State :=
  let y := s.link l
  if y.retrain ∧ (s.linkState l = lsTrain ∨ s.linkState l = lsIdent) then
    let s := startTraining s l
    s.setLink l { s.link l with began := y.began }
  else s

/-- What a restart interrupted in raising: the step and the commanded retrain end FAILED with RESTART, and links' own retrains begin
again (R368). -/
def endInterrupted (s : State) : State :=
  let s := match s.raising.running with
    | some (code, n) => closeStep s n code (some (0x0A, 0))
    | none => s
  let s := match s.raising.retrain with
    | some (code, u, n) =>
      closeRetrainCmd (if code = 0x21 then endChannel s u false [] else (finishLink s u).1) n code (some (0x0A, 0))
    | none => s
  upTo 6 (fun l s => trainAgain s l) s

/-! ## Queued writes (R378) -/

/-- The performance of one emulated write that waited in a port's queue: the command's own meaning. -/
def performWrite (c : Instr) (s : State) : State :=
  let r := match c with
    | .registerWrite n o v => execRegisterWrite n o v s
    | .attach n => execAttach n s
    | .detach n => execDetach n s
    | .create n => execCreate n s
    | .delete n => execDelete n s
    | .query n => execQuery n s
    | .raise n => execRaise n s
    | .reset n => execReset n s
    | .shore n => execShore n s
    | .unshore n => execUnshore n s
    | .remove n => execRemove n s
    | .mbCtrlSend n v f => execMbCtrlSend n v f s
    | .lgCtrlStart n => execLgCtrlStart n s
    | .lgCtrlStop n => execLgCtrlStop n s
    | .loadFw n image => execLoadFw n image s
    | .fuseLoad n => execFuseLoad n s
    | .clocks n => execClocks n s
    | .memTrainA n => execMemTrainA n s
    | .coreTest n => execCoreTest n s
    | .reduced n => execReduced n s
    | .memTrainB n => execMemTrainB n s
    | .linkTrain n => execLinkTrain n s
    | .linkSoak n => execLinkSoak n s
    | .plumb n => execPlumb n s
    | .ready n => execReady n s
    | .retrainChannel n => execRetrainChannel n s
    | .retrainLink n => execRetrainLink n s
    | _ => .next s
  match r with
  | .next t => t
  | _ => s

/-- The queue of a port is performed in order; what is left waits again where a write restarts the management core (R378). -/
def performPort (s : State) (n : Nat) : State :=
  let q := (s.port n).emu
  if q.isEmpty then s
  else q.foldl (fun s c => if s.fw.busy then s.setPort n { s.port n with emu := (s.port n).emu ++ [c] } else performWrite c s)
    (s.setPort n { s.port n with emu := [] })

/-- The queues of the ports are performed, in the ports' order (R378; the order among ports, log 106). -/
def performQueued (s : State) : State := upTo 4 (fun n s => performPort s n) s

/-- FW_BUSY_CLEAR: the restart is over: the runtime image resumes, or the boot image serves where the held store failed its check, as it does where a
later LOAD_FW has left an image there that failed (DEDUCED, log 176); the restart is recorded, with its duration in ms, a quote whose signature is finished is stored, and the queued writes are performed (R350, R368,
R371, R375 to R378, R403). -/
def execFwBusyClear (heldOk : Bool) (duration : Word) (s : State) : Host.Outcome State Fault Refusal :=
  .next (
    if !s.fw.busy then s
    else
      let s := { s with fw := { s.fw with busy := false } }
      let s := if s.sec.signed then storeQuote s else s
      let note (s : State) : State := s.record 0x2010 [s.getN Obj.fwRestartWhy 0, duration.toNat]
      if s.fw.image = .runtime ∧ heldOk ∧ s.fw.held = some s.fw.runs then
        resumeWork (performQueued (endInterrupted (note (s.note none .imageStart (imgBuild s.fw.runs)))))
      else if s.fw.image = .runtime then
        let s := { s with fw := { s.fw with image := .boot, held := none, service := some (s.getR 0 Reg.rsService) } }
        performQueued (endInterrupted (note (serveBoot ((s.setR 0 Reg.rsService 0).setN Obj.fwRtVer 0 0) (s.fw.boot.getD []))))
      else performQueued (endInterrupted (note (serveBoot s (s.fw.boot.getD [])))))

/-! ## Trace entries, and a cycle in which no command waits (R380, R382) -/

/-- Whether some port's ring runs and enables a trace class (R380, R382). -/
def State.traced (s : State) : Bool :=
  s.serving && (List.range 4).any fun n => (s.port n).logging && s.getR n Reg.trEnable % 2 ^ 15 != 0

/-- The runtime traces, where a ring receives it: one of the entries that its dictionary lists, of a partition or of the module as a whole, or none; which
of them it makes at what time, and their arguments, are free values (R382; DESIGN CHOICE, log 107). -/
def trace (s : State) : State :=
  if !s.traced then s
  else
    let es := (Config.traceCodes (s.runtimeBytes.getD [])).filter fun e => decide (e.1.toNat ≤ 14)
    let (r, s) := s.draw
    match es[r % (es.length + 1)]? with
    | none => s
    | some (cls, count, code, _) =>
      let (q, s) := s.draw
      let n := min count.toNat 4
      let (bs, s) := s.drawBytes (4 * n)
      let args := (pieces 4 n bs).map leNat
      (noticePorts s (if q % 9 < 8 then some (q % 9) else none)).foldl (logTo cls.toNat code.toNat args) s

/-- The firmware finds 10 ms of a FENCE reset over with requests still outstanding: they are treated as in TAG mode, and the Scribe records it (R415). -/
def endEdges (s : State) : State :=
  if !s.serving then s else upTo 8 (fun p s => if s.edgeLate p then tagLate s p else s) s

/-- What the module does when no command waits: a cycle of TICK passes, in which the firmware may trace (DESIGN CHOICE, log 8, log 107); a departure's
flush is done 3 ms after its start, and a FENCE reset's wait is over after 10 ms (R415, R428). -/
def tick (s : State) : State := endEdges (endDeparture (idle (trace s)))

end Sys2Proof.Machine
end

