-- ==== Sys2Proof/Machine/Scalar.lean ====
section
/-! DEFINITION. Scalar arithmetic and logic, group 0x0 (R125). -/

namespace Sys2Proof.Machine

/-- The second operand: gb, or imm where m[0] = 1 (R125). -/
def Core.op2 (k : Core) (f : Fields) : Word := if f.m.getLsbD 0 then f.imm else k.getG f.b

/-- gd := op (ga, op2), modulo 2^32 (R125). -/
def scalar (f : Fields) (op : Word → Word → Word) (k : Core) : Issued :=
  .step (k.setG f.d (op (k.getG f.a) (k.op2 f)))

/-- The high word of a 64-bit product, signed or unsigned (R125). -/
def mulHigh (uns : Bool) (x y : Word) : Word :=
  if uns then BitVec.ofNat 32 (x.toNat * y.toNat / 2 ^ 32) else BitVec.ofInt 32 (x.toInt * y.toInt / 2 ^ 32)

/-- The smaller of two words (R125). -/
def minWord (uns : Bool) (x y : Word) : Word := if (if uns then y.ult x else y.slt x) then y else x
/-- The larger of two words (R125). -/
def maxWord (uns : Bool) (x y : Word) : Word := if (if uns then x.ult y else x.slt y) then y else x

/-- ADD. -/
def execAdd (x : AtCore) (f : Fields) (s : State) : Host.Outcome State Fault Refusal :=
  let c := x.core
  let s := s.strike c x.found
  .next (issue .add c f s (scalar f fun x y => x + y))
/-- SUB. -/
def execSub (x : AtCore) (f : Fields) (s : State) : Host.Outcome State Fault Refusal :=
  let c := x.core
  let s := s.strike c x.found
  .next (issue .sub c f s (scalar f fun x y => x - y))
/-- AND. -/
def execAnd (x : AtCore) (f : Fields) (s : State) : Host.Outcome State Fault Refusal :=
  let c := x.core
  let s := s.strike c x.found
  .next (issue .and c f s (scalar f fun x y => x &&& y))
/-- OR. -/
def execOr (x : AtCore) (f : Fields) (s : State) : Host.Outcome State Fault Refusal :=
  let c := x.core
  let s := s.strike c x.found
  .next (issue .or c f s (scalar f fun x y => x ||| y))
/-- XOR. -/
def execXor (x : AtCore) (f : Fields) (s : State) : Host.Outcome State Fault Refusal :=
  let c := x.core
  let s := s.strike c x.found
  .next (issue .xor c f s (scalar f fun x y => x ^^^ y))
/-- SHL: bits [4:0] of the amount. -/
def execShl (x : AtCore) (f : Fields) (s : State) : Host.Outcome State Fault Refusal :=
  let c := x.core
  let s := s.strike c x.found
  .next (issue .shl c f s (scalar f fun x y => x <<< (y.toNat % 32)))
/-- SHR. -/
def execShr (x : AtCore) (f : Fields) (s : State) : Host.Outcome State Fault Refusal :=
  let c := x.core
  let s := s.strike c x.found
  .next (issue .shr c f s (scalar f fun x y => x >>> (y.toNat % 32)))
/-- SAR. -/
def execSar (x : AtCore) (f : Fields) (s : State) : Host.Outcome State Fault Refusal :=
  let c := x.core
  let s := s.strike c x.found
  .next (issue .sar c f s (scalar f fun x y => x.sshiftRight (y.toNat % 32)))
/-- MUL: low 32 bits. -/
def execMul (x : AtCore) (f : Fields) (s : State) : Host.Outcome State Fault Refusal :=
  let c := x.core
  let s := s.strike c x.found
  .next (issue .mul c f s (scalar f fun x y => x * y))
/-- MULH: high 32 bits; m[1] = 1 unsigned. -/
def execMulh (x : AtCore) (f : Fields) (s : State) : Host.Outcome State Fault Refusal :=
  let c := x.core
  let s := s.strike c x.found
  .next (issue .mulh c f s (scalar f (mulHigh (f.m.getLsbD 1))))
/-- SETP: pd := compare by m[3:1]. -/
def execSetp (x : AtCore) (f : Fields) (s : State) : Host.Outcome State Fault Refusal :=
  let c := x.core
  let s := s.strike c x.found
  .next (issue .setp c f s fun k =>
    .step (k.setP f.d.toNat (compareG (bits f.m.toNat 1 3) (k.getG f.a) (k.op2 f))))
/-- PLOG: pd := pa op pb by m[1:0]. -/
def execPlog (x : AtCore) (f : Fields) (s : State) : Host.Outcome State Fault Refusal :=
  let c := x.core
  let s := s.strike c x.found
  .next (issue .plog c f s fun k =>
    .step (k.setP f.d.toNat (logicP (bits f.m.toNat 0 2) (k.getP f.a.toNat) (k.getP f.b.toNat))))
/-- LI: gd := imm. -/
def execLi (x : AtCore) (f : Fields) (s : State) : Host.Outcome State Fault Refusal :=
  let c := x.core
  let s := s.strike c x.found
  .next (issue .li c f s fun k => .step (k.setG f.d f.imm))
/-- SEL: gd := ga if p(imm[2:0]), else gb. -/
def execSel (x : AtCore) (f : Fields) (s : State) : Host.Outcome State Fault Refusal :=
  let c := x.core
  let s := s.strike c x.found
  .next (issue .sel c f s fun k =>
    .step (k.setG f.d (if k.getP (bits f.imm.toNat 0 3) then k.getG f.a else k.getG f.b)))
/-- MIN; m[1] = 1 unsigned. -/
def execMin (x : AtCore) (f : Fields) (s : State) : Host.Outcome State Fault Refusal :=
  let c := x.core
  let s := s.strike c x.found
  .next (issue .min c f s (scalar f (minWord (f.m.getLsbD 1))))
/-- MAX; m[1] = 1 unsigned. -/
def execMax (x : AtCore) (f : Fields) (s : State) : Host.Outcome State Fault Refusal :=
  let c := x.core
  let s := s.strike c x.found
  .next (issue .max c f s (scalar f (maxWord (f.m.getLsbD 1))))

end Sys2Proof.Machine
end

