-- ==== Sys2Proof/Machine/ScalarMem.lean ====
section
/-! DEFINITION. Scalar load and store, group 0x1 (R126). -/

namespace Sys2Proof.Machine

/-- The address ga + imm, modulo 2^32 (R126). -/
def Core.addr (k : Core) (f : Fields) : Nat := (k.getG f.a + f.imm).toNat

/-- gd := `n` bytes, sign-extended where m[0] = 1 (R126). -/
def scalarLoad (f : Fields) (n : Nat) (k : Core) : Issued :=
  let a := k.addr f
  let v := readNum k.scratch a n
  .unless (k.scalarFault a n)
    (.step (k.setG f.d (if f.m.getLsbD 0 then BitVec.ofInt 32 (signed (8 * n) v) else BitVec.ofNat 32 v)))

/-- The low `n` bytes of gb stored: a read-modify-write of a 16-byte word (R91, R126). -/
def scalarStore (f : Fields) (n : Nat) (k : Core) : Issued :=
  let a := k.addr f
  .unless (k.scalarFault a n) (.step ((k.store a (leBytes n (k.getG f.b).toNat)).overtake [(a, n)]))

/-- LDW. -/
def execLdw (x : AtCore) (f : Fields) (s : State) : Host.Outcome State Fault Refusal :=
  let c := x.core
  let s := s.strike c x.found
  .next (issue .ldw c f s (scalarLoad f 4))
/-- LDH. -/
def execLdh (x : AtCore) (f : Fields) (s : State) : Host.Outcome State Fault Refusal :=
  let c := x.core
  let s := s.strike c x.found
  .next (issue .ldh c f s (scalarLoad f 2))
/-- LDB. -/
def execLdb (x : AtCore) (f : Fields) (s : State) : Host.Outcome State Fault Refusal :=
  let c := x.core
  let s := s.strike c x.found
  .next (issue .ldb c f s (scalarLoad f 1))
/-- STW. -/
def execStw (x : AtCore) (f : Fields) (s : State) : Host.Outcome State Fault Refusal :=
  let c := x.core
  let s := s.strike c x.found
  .next (issue .stw c f s (scalarStore f 4))
/-- STH. -/
def execSth (x : AtCore) (f : Fields) (s : State) : Host.Outcome State Fault Refusal :=
  let c := x.core
  let s := s.strike c x.found
  .next (issue .sth c f s (scalarStore f 2))
/-- STB. -/
def execStb (x : AtCore) (f : Fields) (s : State) : Host.Outcome State Fault Refusal :=
  let c := x.core
  let s := s.strike c x.found
  .next (issue .stb c f s (scalarStore f 1))

end Sys2Proof.Machine
end

