-- ==== Sys2Proof/Machine/System.lean ====
section
/-! DEFINITION. System instructions, group 0xC (R86, R108). HALT is in Machine/Sync.lean. -/

namespace Sys2Proof.Machine

/-- The code of a slot's state (R86). -/
def Fill.code : Fill → Nat
  | .empty => 0
  | .filling => 1
  | .full => 2

/-- CORE_INF0 or CORE_INF1: the state in [1:0], the tag in [31:16], which reads zero while EMPTY (R86). -/
def Slot.register (x : Slot) : Word :=
  BitVec.ofNat 32 (x.fill.code + (if x.fill = .empty then 0 else x.tag.toNat * 2 ^ 16))

/-- The special register at an index of R86. Where no read of CORE_CYCLO has captured it in the step, CORE_CYCHI reads zero (DESIGN CHOICE,
log 117). -/
def special (s : State) (c : Nat) (i : Nat) : Word :=
  let k := s.core c
  let y := s.bay (bayOf c)
  match i with
  | 0x00 => BitVec.ofNat 32 (bayX (bayOf c))
  | 0x01 => BitVec.ofNat 32 (bayY (bayOf c))
  | 0x02 => BitVec.ofNat 32 (rowOf c % 8)
  | 0x03 => BitVec.ofNat 32 (c % 16)
  | 0x04 => y.py
  | 0x05 => y.pk
  | 0x06 => y.part
  | 0x08 => k.arg0
  | 0x09 => k.arg1
  | 0x0C => k.cycles.setWidth 32
  | 0x0D => k.cycHi
  | 0x0E => if k.kerf then 1 else 0
  | 0x10 => k.slot0.register
  | 0x11 => k.slot1.register
  | 0x12 => match k.loops with
    | [] => 0
    | l :: _ => BitVec.ofNat 32 l.count
  | _ => 0

/-- What a read of a slot's state by core `c` may find: a fill that the streamer has begun by now (R86, R95; log 130). -/
def lookAtSlots (s : State) (c : Fin 8192) (f : Fields) : State :=
  let i := bits f.imm.toNat 0 8
  if (i = 0x10 ∨ i = 0x11) ∧ (s.core c).run = .running ∧ fetch s c = .inr (.mfs, f) ∧ (s.core c).guarded f then beginFill s (rowOf c)
  else s

/-- NOP. -/
def execNop (x : AtCore) (f : Fields) (s : State) : Host.Outcome State Fault Refusal :=
  let c := x.core
  let s := s.strike c x.found
  .next (issue .nop c f s fun k => .step k)
/-- MFS: gd := a special register; a read of CORE_CYCLO captures CORE_CYCHI (R86). -/
def execMfs (x : AtCore) (f : Fields) (s : State) : Host.Outcome State Fault Refusal :=
  let c := x.core
  let s := lookAtSlots (s.strike c x.found) c f
  .next (issue .mfs c f s fun k =>
    let i := bits f.imm.toNat 0 8
    let k' := if i = 0x0C then { k with cycHi := (k.cycles >>> 32).setWidth 32 } else k
    .step (k'.setG f.d (special s c i)))
/-- TRAP: the fault TRAP with code imm[15:0]. -/
def execTrap (x : AtCore) (f : Fields) (s : State) : Host.Outcome State Fault Refusal :=
  let c := x.core
  let s := s.strike c x.found
  .next (issue .trap c f s fun _ => .fault trapFault (f.imm.setWidth 16))

end Sys2Proof.Machine
end

