-- ==== Sys2Proof/Machine/VectorMem.lean ====
section
/-! DEFINITION. Vector load, store and lane moves, group 0x4 (R91, R93, R131). -/

namespace Sys2Proof.Machine

/-- The element width in bytes by m[1:0] (R131). -/
def laneBytes (f : Fields) : Nat :=
  match bits f.m.toNat 0 2 with
  | 0 => 4
  | 1 => 2
  | _ => 1

/-- The enabled lanes of VLD and VST with their addresses: ga + imm[16:0] + i × imm[30:17], modulo 2^32; bit i of gb
disables lane i (R131). -/
def Core.strideLanes (k : Core) (f : Fields) : List (Nat × Nat) :=
  let base := (k.getG f.a).toNat + bits f.imm.toNat 0 17
  let off := k.getG f.b
  (List.range 32).filterMap fun i =>
    if off.getLsbD i then none else some (i, (base + i * bits f.imm.toNat 17 14) % 2 ^ 32)

/-- The lanes of VLDX and VSTX: lane i at ga + imm[16:0] + vb[i], modulo 2^32 (R131). -/
def Core.indexLanes (k : Core) (f : Fields) : List (Nat × Nat) :=
  let base := (k.getG f.a).toNat + bits f.imm.toNat 0 17
  (List.range 32).map fun i => (i, (base + (k.lane f.b i).toNat) % 2 ^ 32)

/-- Range and alignment of the lanes; `first` asks a multiple of 16 of lane 0 (R93, R131). -/
def laneFaults (n : Nat) (first : Bool) (ls : List (Nat × Nat)) : List (Bool × Byte) :=
  [(ls.any fun (_, a) => decide (scratchSize < a + n), addressRange),
    (ls.any fun (i, a) => a % n != 0 || (first && i == 0 && a % 16 != 0), misaligned)]

/-- The cycles that lanes take: the largest number of distinct 16-byte words in one bank (R93). -/
def bankCycles (ls : List (Nat × Nat)) : Nat :=
  let ws := (ls.map fun (_, a) => a / 16).eraseDups
  max 1 ((List.range 16).foldl (fun n b => max n (ws.countP fun w => w % 16 == b)) 0)

/-- A lane's element, sign-extended where m[2] = 1 (R131). -/
def Core.loadLane (k : Core) (f : Fields) (a : Nat) : Word :=
  let n := laneBytes f
  let v := readNum k.scratch a n
  if f.m.getLsbD 2 then BitVec.ofInt 32 (signed (8 * n) v) else BitVec.ofNat 32 v

/-- vd := the lanes' elements; a disabled lane keeps its old contents (R131). -/
def vectorLoad (f : Fields) (first : Bool) (ls : List (Nat × Nat)) (k : Core) : Issued :=
  let n := laneBytes f
  let bad := ls.any fun (_, a) => (wordsIn a n).any k.badWords.contains
  .unless (lowest (laneFaults n first ls ++ [(bad, dataError)]))
    (.step (k.setV f.d ((List.range 32).map fun i =>
      match ls.lookup i with
      | some a => k.loadLane f a
      | none => k.lane f.d i)) (bankCycles ls))

/-- Whether the lanes cover all 16 bytes of a word (R131). -/
def coversWord (n : Nat) (ls : List (Nat × Nat)) (w : Nat) : Bool :=
  (List.range 16).all fun b => ls.any fun (_, a) => decide (a ≤ 16 * w + b) && decide (16 * w + b < a + n)

/-- The lanes of vd stored, the higher lane winning a shared element; a word covered in part is a read-modify-write and
cannot be uncorrectable, and a word covered whole gets fresh check bits (R131). -/
def vectorStore (f : Fields) (first : Bool) (ls : List (Nat × Nat)) (k : Core) : Issued :=
  let n := laneBytes f
  let touched := k.badWords.filter fun w => ls.any fun (_, a) => (wordsIn a n).contains w
  .unless (lowest (laneFaults n first ls ++ [(touched.any fun w => !coversWord n ls w, dataError)]))
    (.step (Core.overtake { k with
      scratch := ls.foldl (fun m (i, a) => writeBytes m a (leBytes n (k.lane f.d i).toNat)) k.scratch
      written := ls.foldl (fun w (_, a) => if w.contains (a, n) then w else (a, n) :: w) k.written
      under := ls.foldl (fun u (_, a) => wipe u a n) k.under
      badWords := k.badWords.filter fun w => !coversWord n ls w } (ls.map fun l => (l.2, n))) (bankCycles ls))

/-- VLD. -/
def execVld (x : AtCore) (f : Fields) (s : State) : Host.Outcome State Fault Refusal :=
  let c := x.core
  let s := s.strike c x.found
  .next (issue .vld c f s fun k => vectorLoad f true (k.strideLanes f) k)
/-- VST. -/
def execVst (x : AtCore) (f : Fields) (s : State) : Host.Outcome State Fault Refusal :=
  let c := x.core
  let s := s.strike c x.found
  .next (issue .vst c f s fun k => vectorStore f true (k.strideLanes f) k)
/-- VLDX. -/
def execVldx (x : AtCore) (f : Fields) (s : State) : Host.Outcome State Fault Refusal :=
  let c := x.core
  let s := s.strike c x.found
  .next (issue .vldx c f s fun k => vectorLoad f false (k.indexLanes f) k)
/-- VSTX. -/
def execVstx (x : AtCore) (f : Fields) (s : State) : Host.Outcome State Fault Refusal :=
  let c := x.core
  let s := s.strike c x.found
  .next (issue .vstx c f s fun k => vectorStore f false (k.indexLanes f) k)
/-- VINS: lane imm[4:0] of vd := ga. -/
def execVins (x : AtCore) (f : Fields) (s : State) : Host.Outcome State Fault Refusal :=
  let c := x.core
  let s := s.strike c x.found
  .next (issue .vins c f s fun k =>
    .step (k.setV f.d ((List.range 32).map fun i =>
      if i = bits f.imm.toNat 0 5 then k.getG f.a else k.lane f.d i)))
/-- VEXT: gd := lane imm[4:0] of va. -/
def execVext (x : AtCore) (f : Fields) (s : State) : Host.Outcome State Fault Refusal :=
  let c := x.core
  let s := s.strike c x.found
  .next (issue .vext c f s fun k => .step (k.setG f.d (k.lane f.a (bits f.imm.toNat 0 5))))
/-- VBCST: every lane := ga. -/
def execVbcst (x : AtCore) (f : Fields) (s : State) : Host.Outcome State Fault Refusal :=
  let c := x.core
  let s := s.strike c x.found
  .next (issue .vbcst c f s fun k => .step (k.setV f.d (List.replicate 32 (k.getG f.a))))

end Sys2Proof.Machine
end

