-- ==== Sys2Proof/Machine/Dispatch.lean ====
section
/-! DEFINITION. One arm per command: its meaning, or its rejection by name. -/

namespace Sys2Proof.Machine

/-- What a command does to everything but the queue of commands that wait. -/
def exec (i : Instr) (s : State) : Host.Outcome State Fault Refusal :=
  match i with
  | .add c f => Sys2Proof.Machine.execAdd c f s
  | .sub c f => Sys2Proof.Machine.execSub c f s
  | .and c f => Sys2Proof.Machine.execAnd c f s
  | .or c f => Sys2Proof.Machine.execOr c f s
  | .xor c f => Sys2Proof.Machine.execXor c f s
  | .shl c f => Sys2Proof.Machine.execShl c f s
  | .shr c f => Sys2Proof.Machine.execShr c f s
  | .sar c f => Sys2Proof.Machine.execSar c f s
  | .mul c f => Sys2Proof.Machine.execMul c f s
  | .mulh c f => Sys2Proof.Machine.execMulh c f s
  | .setp c f => Sys2Proof.Machine.execSetp c f s
  | .plog c f => Sys2Proof.Machine.execPlog c f s
  | .li c f => Sys2Proof.Machine.execLi c f s
  | .sel c f => Sys2Proof.Machine.execSel c f s
  | .min c f => Sys2Proof.Machine.execMin c f s
  | .max c f => Sys2Proof.Machine.execMax c f s
  | .ldw c f => Sys2Proof.Machine.execLdw c f s
  | .ldh c f => Sys2Proof.Machine.execLdh c f s
  | .ldb c f => Sys2Proof.Machine.execLdb c f s
  | .stw c f => Sys2Proof.Machine.execStw c f s
  | .sth c f => Sys2Proof.Machine.execSth c f s
  | .stb c f => Sys2Proof.Machine.execStb c f s
  | .br c f => Sys2Proof.Machine.execBr c f s
  | .bri c f => Sys2Proof.Machine.execBri c f s
  | .loop c f => Sys2Proof.Machine.execLoop c f s
  | .brk c f => Sys2Proof.Machine.execBrk c f s
  | .vadd c f => Sys2Proof.Machine.execVadd c f s
  | .vsub c f => Sys2Proof.Machine.execVsub c f s
  | .vmul c f => Sys2Proof.Machine.execVmul c f s
  | .vfma c f => Sys2Proof.Machine.execVfma c f s
  | .vmin c f => Sys2Proof.Machine.execVmin c f s
  | .vmax c f => Sys2Proof.Machine.execVmax c f s
  | .vand c f => Sys2Proof.Machine.execVand c f s
  | .vor c f => Sys2Proof.Machine.execVor c f s
  | .vxor c f => Sys2Proof.Machine.execVxor c f s
  | .vshl c f => Sys2Proof.Machine.execVshl c f s
  | .vshr c f => Sys2Proof.Machine.execVshr c f s
  | .vcmp c f => Sys2Proof.Machine.execVcmp c f s
  | .vsel c f => Sys2Proof.Machine.execVsel c f s
  | .vcvt c f => Sys2Proof.Machine.execVcvt c f s
  | .vred c f => Sys2Proof.Machine.execVred c f s
  | .vperm c f => Sys2Proof.Machine.execVperm c f s
  | .vld c f => Sys2Proof.Machine.execVld c f s
  | .vst c f => Sys2Proof.Machine.execVst c f s
  | .vldx c f => Sys2Proof.Machine.execVldx c f s
  | .vstx c f => Sys2Proof.Machine.execVstx c f s
  | .vins c f => Sys2Proof.Machine.execVins c f s
  | .vext c f => Sys2Proof.Machine.execVext c f s
  | .vbcst c f => Sys2Proof.Machine.execVbcst c f s
  | .vnl c f => Sys2Proof.Machine.execVnl c f s
  | .vflr c f => Sys2Proof.Machine.execVflr c f s
  | .vfrac c f => Sys2Proof.Machine.execVfrac c f s
  | .vldexp c f => Sys2Proof.Machine.execVldexp c f s
  | .tmma c f => Sys2Proof.Machine.execTmma c f s
  | .tmmac c f => Sys2Proof.Machine.execTmmac c f s
  | .tclr c f => Sys2Proof.Machine.execTclr c f s
  | .tjoin c f => Sys2Proof.Machine.execTjoin c f s
  | .drain c f => Sys2Proof.Machine.execDrain c f s
  | .exportTile c f => Sys2Proof.Machine.execExportTile c f s
  | .tensorQueueEntry c => Sys2Proof.Machine.execTensorQueueEntry c s
  | .swait c f => Sys2Proof.Machine.execSwait c f s
  | .srel c f => Sys2Proof.Machine.execSrel c f s
  | .movd c f => Sys2Proof.Machine.execMovd c f s
  | .barb c f => Sys2Proof.Machine.execBarb c f s
  | .bard c f => Sys2Proof.Machine.execBard c f s
  | .waitf c f => Sys2Proof.Machine.execWaitf c f s
  | .tsync c f => Sys2Proof.Machine.execTsync c f s
  | .mwait c f => Sys2Proof.Machine.execMwait c f s
  | .tcoll c f => Sys2Proof.Machine.execTcoll c f s
  | .lsend c f => Sys2Proof.Machine.execLsend c f s
  | .nop c f => Sys2Proof.Machine.execNop c f s
  | .mfs c f => Sys2Proof.Machine.execMfs c f s
  | .halt c f => Sys2Proof.Machine.execHalt c f s
  | .trap c f => Sys2Proof.Machine.execTrap c f s
  | .dieBarrierToken b => Sys2Proof.Machine.execDieBarrierToken b s
  | .dieBarrierRelease b => Sys2Proof.Machine.execDieBarrierRelease b s
  | .transferStart c id => Sys2Proof.Machine.execTransferStart c id s
  | .transferComplete c id => Sys2Proof.Machine.execTransferComplete c id s
  | .faultReport b => Sys2Proof.Machine.execFaultReport b s
  | .stopConfirmationTimeout p => Sys2Proof.Machine.execStopConfirmationTimeout p s
  | .stepLoad b => Sys2Proof.Machine.execStepLoad b s
  | .startToken p => Sys2Proof.Machine.execStartToken p s
  | .stepComplete p => Sys2Proof.Machine.execStepComplete p s
  | .streamRead n k => Sys2Proof.Machine.execStreamRead n k s
  | .streamFlit b => Sys2Proof.Machine.execStreamFlit b s
  | .fillWrite b r => Sys2Proof.Machine.execFillWrite b r s
  | .stageCreditReturn b stream => Sys2Proof.Machine.execStageCreditReturn b stream s
  | .descriptorFetch b r => Sys2Proof.Machine.execDescriptorFetch b r s
  | .controllerRequest n q e => Sys2Proof.Machine.execControllerRequest n q e s
  | .patrol n addr e => Sys2Proof.Machine.execPatrol n addr e s
  | .allocationRequest p x page => Sys2Proof.Machine.execAllocationRequest p x page s
  | .refill b p page first second => Sys2Proof.Machine.execRefill b p page first second s
  | .scrubDone n => Sys2Proof.Machine.execScrubDone n s
  | .sliceDescriptor u => Sys2Proof.Machine.execSliceDescriptor u s
  | .engineLoaded u x record grammar => Sys2Proof.Machine.execEngineLoaded u x record grammar s
  | .rowComplete u x => Sys2Proof.Machine.execRowComplete u x s
  | .admission p => Sys2Proof.Machine.execAdmission p s
  | .creditRegrant k peer => Sys2Proof.Machine.execCreditRegrant k peer s
  | .chunkSend k dest => Sys2Proof.Machine.execChunkSend k dest s
  | .fold k => Sys2Proof.Machine.execFold k s
  | .chunkTimeout k dest chunk => Sys2Proof.Machine.execChunkTimeout k dest chunk s
  | .receiveTimeout k peer => Sys2Proof.Machine.execReceiveTimeout k peer s
  | .laneLockTimeout l => Sys2Proof.Machine.execLaneLockTimeout l s
  | .codeword l w => Sys2Proof.Machine.execCodeword l w s
  | .read l h => Sys2Proof.Machine.execRead l h s
  | .write l h data => Sys2Proof.Machine.execWrite l h data s
  | .readReply l h data => Sys2Proof.Machine.execReadReply l h data s
  | .writeReply l h => Sys2Proof.Machine.execWriteReply l h s
  | .chunk l h data => Sys2Proof.Machine.execChunk l h data s
  | .chunkAck l h => Sys2Proof.Machine.execChunkAck l h s
  | .chunkCredit l h => Sys2Proof.Machine.execChunkCredit l h s
  | .chunkCount l h => Sys2Proof.Machine.execChunkCount l h s
  | .idle l => Sys2Proof.Machine.execIdle l s
  | .ident l k => Sys2Proof.Machine.execIdent l k s
  | .credit l freed => Sys2Proof.Machine.execCredit l freed s
  | .audit l sent => Sys2Proof.Machine.execAudit l sent s
  | .depart l serial => Sys2Proof.Machine.execDepart l serial s
  | .creditSend l => Sys2Proof.Machine.execCreditSend l s
  | .auditSend l => Sys2Proof.Machine.execAuditSend l s
  | .identSend l => Sys2Proof.Machine.execIdentSend l s
  | .linkTransmit l vc => Sys2Proof.Machine.execLinkTransmit l vc s
  | .remoteRequest forCopy unit id => Sys2Proof.Machine.execRemoteRequest forCopy unit id s
  | .replySend k => Sys2Proof.Machine.execReplySend k s
  | .requestTimeout tag => Sys2Proof.Machine.execRequestTimeout tag s
  | .tagQuarantineEnd tag => Sys2Proof.Machine.execTagQuarantineEnd tag s
  | .laneLockLost l => Sys2Proof.Machine.execLaneLockLost l s
  | .berWindow l errors bits overrun => Sys2Proof.Machine.execBerWindow l errors bits overrun s
  | .linkSilence l => Sys2Proof.Machine.execLinkSilence l s
  | .linkRetrainAttempt l => Sys2Proof.Machine.execLinkRetrainAttempt l s
  | .functionLevelReset n => Sys2Proof.Machine.execFunctionLevelReset n s
  | .hotReset n => Sys2Proof.Machine.execHotReset n s
  | .pcieLinkDown n => Sys2Proof.Machine.execPcieLinkDown n s
  | .busMasterEnableClear n => Sys2Proof.Machine.execBusMasterEnableClear n s
  | .perst n => Sys2Proof.Machine.execPerst n s
  | .bar4Read n offset len => Sys2Proof.Machine.execBar4Read n offset len s
  | .bar4Write n offset data => Sys2Proof.Machine.execBar4Write n offset data s
  | .emuLate n stuck => Sys2Proof.Machine.execEmuLate n stuck s
  | .registerWrite n offset value => Sys2Proof.Machine.execRegisterWrite n offset value s
  | .hpTimeLo n => Sys2Proof.Machine.execHpTimeLo n s
  | .hpHeartbeat n value => Sys2Proof.Machine.execHpHeartbeat n value s
  | .attach n => Sys2Proof.Machine.execAttach n s
  | .detach n => Sys2Proof.Machine.execDetach n s
  | .heartbeatTimeout n => Sys2Proof.Machine.execHeartbeatTimeout n s
  | .holdExpire n => Sys2Proof.Machine.execHoldExpire n s
  | .raise n => Sys2Proof.Machine.execRaise n s
  | .formation p => Sys2Proof.Machine.execFormation p s
  | .reset n => Sys2Proof.Machine.execReset n s
  | .resetDone p => Sys2Proof.Machine.execResetDone p s
  | .shore n => Sys2Proof.Machine.execShore n s
  | .unshore n => Sys2Proof.Machine.execUnshore n s
  | .remove n => Sys2Proof.Machine.execRemove n s
  | .create n => Sys2Proof.Machine.execCreate n s
  | .delete n => Sys2Proof.Machine.execDelete n s
  | .query n => Sys2Proof.Machine.execQuery n s
  | .dbSqTail n q value entries => Sys2Proof.Machine.execDbSqTail n q value entries s
  | .dbCqHead n q value => Sys2Proof.Machine.execDbCqHead n q value s
  | .step q => Sys2Proof.Machine.execStep q s
  | .openCtx q => Sys2Proof.Machine.execOpenCtx q s
  | .bind q => Sys2Proof.Machine.execBind q s
  | .resume q => Sys2Proof.Machine.execResume q s
  | .park q => Sys2Proof.Machine.execPark q s
  | .close q => Sys2Proof.Machine.execClose q s
  | .setParams q => Sys2Proof.Machine.execSetParams q s
  | .copy q hostData => Sys2Proof.Machine.execCopy q hostData s
  | .grammarLoad q => Sys2Proof.Machine.execGrammarLoad q s
  | .grammarEmpty q => Sys2Proof.Machine.execGrammarEmpty q s
  | .fenceQueue q => Sys2Proof.Machine.execFenceQueue q s
  | .fencePartition q => Sys2Proof.Machine.execFencePartition q s
  | .delay q => Sys2Proof.Machine.execDelay q s
  | .deadline q => Sys2Proof.Machine.execDeadline q s
  | .timerExpiry q seq => Sys2Proof.Machine.execTimerExpiry q seq s
  | .commandCompletion q seq => Sys2Proof.Machine.execCommandCompletion q seq s
  | .commandTimeout q seq => Sys2Proof.Machine.execCommandTimeout q seq s
  | .objectRead o m => Sys2Proof.Machine.execObjectRead o m s
  | .objectWrite o m => Sys2Proof.Machine.execObjectWrite o m s
  | .nextObject o m => Sys2Proof.Machine.execNextObject o m s
  | .sessionOpen o m => Sys2Proof.Machine.execSessionOpen o m s
  | .sessionProve o m => Sys2Proof.Machine.execSessionProve o m s
  | .sessionClose o m => Sys2Proof.Machine.execSessionClose o m s
  | .sessionIdleExpiry k => Sys2Proof.Machine.execSessionIdleExpiry k s
  | .validityEnd k => Sys2Proof.Machine.execValidityEnd k s
  | .lockoutEnd  => Sys2Proof.Machine.execLockoutEnd  s
  | .partialWriteExpiry k => Sys2Proof.Machine.execPartialWriteExpiry k s
  | .snapshotExpiry k => Sys2Proof.Machine.execSnapshotExpiry k s
  | .mbCtrlSend n value noFlash => Sys2Proof.Machine.execMbCtrlSend n value noFlash s
  | .neighborDiscovery o target duplicate => Sys2Proof.Machine.execNeighborDiscovery o target duplicate s
  | .echo o payload => Sys2Proof.Machine.execEcho o payload s
  | .comUdpPort o m => Sys2Proof.Machine.execComUdpPort o m s
  | .jobEpoch o m => Sys2Proof.Machine.execJobEpoch o m s
  | .jobId o m => Sys2Proof.Machine.execJobId o m s
  | .jobMap o m => Sys2Proof.Machine.execJobMap o m s
  | .routePlan o m => Sys2Proof.Machine.execRoutePlan o m s
  | .memGradeSet o m => Sys2Proof.Machine.execMemGradeSet o m s
  | .pwrCap o m => Sys2Proof.Machine.execPwrCap o m s
  | .clkTimeSet o m => Sys2Proof.Machine.execClkTimeSet o m s
  | .clkOverrun o m => Sys2Proof.Machine.execClkOverrun o m s
  | .secQuoteReq o m => Sys2Proof.Machine.execSecQuoteReq o m s
  | .quoteSigned  => Sys2Proof.Machine.execQuoteSigned  s
  | .secSessRoot o m => Sys2Proof.Machine.execSecSessRoot o m s
  | .secImgRevoked o m => Sys2Proof.Machine.execSecImgRevoked o m s
  | .secMoved o m => Sys2Proof.Machine.execSecMoved o m s
  | .scrClear o m => Sys2Proof.Machine.execScrClear o m s
  | .confirm o m => Sys2Proof.Machine.execConfirm o m s
  | .reject o m => Sys2Proof.Machine.execReject o m s
  | .fwRestart o m => Sys2Proof.Machine.execFwRestart o m s
  | .fwWarm o m => Sys2Proof.Machine.execFwWarm o m s
  | .fwUpdArm o m => Sys2Proof.Machine.execFwUpdArm o m s
  | .fwRecover o m => Sys2Proof.Machine.execFwRecover o m s
  | .updBegin o m => Sys2Proof.Machine.execUpdBegin o m s
  | .updData o m => Sys2Proof.Machine.execUpdData o m s
  | .updEnd o m => Sys2Proof.Machine.execUpdEnd o m s
  | .updStatus o m => Sys2Proof.Machine.execUpdStatus o m s
  | .applyDone  => Sys2Proof.Machine.execApplyDone  s
  | .updateSilence  => Sys2Proof.Machine.execUpdateSilence  s
  | .loadFw n image => Sys2Proof.Machine.execLoadFw n image s
  | .fuseLoad n => Sys2Proof.Machine.execFuseLoad n s
  | .clocks n => Sys2Proof.Machine.execClocks n s
  | .memTrainA n => Sys2Proof.Machine.execMemTrainA n s
  | .coreTest n => Sys2Proof.Machine.execCoreTest n s
  | .reduced n => Sys2Proof.Machine.execReduced n s
  | .memTrainB n => Sys2Proof.Machine.execMemTrainB n s
  | .linkTrain n => Sys2Proof.Machine.execLinkTrain n s
  | .linkSoak n => Sys2Proof.Machine.execLinkSoak n s
  | .plumb n => Sys2Proof.Machine.execPlumb n s
  | .ready n => Sys2Proof.Machine.execReady n s
  | .retrainChannel n => Sys2Proof.Machine.execRetrainChannel n s
  | .retrainLink n => Sys2Proof.Machine.execRetrainLink n s
  | .raisingStepComplete r => Sys2Proof.Machine.execRaisingStepComplete r s
  | .lgCtrlStart n => Sys2Proof.Machine.execLgCtrlStart n s
  | .lgCtrlStop n => Sys2Proof.Machine.execLgCtrlStop n s
  | .watchdogExpire  => Sys2Proof.Machine.execWatchdogExpire  s
  | .mgmtMemoryError  => Sys2Proof.Machine.execMgmtMemoryError  s
  | .fwBusyClear heldOk duration => Sys2Proof.Machine.execFwBusyClear heldOk duration s
  | .romStart candidateServes confirmedServes => Sys2Proof.Machine.execRomStart candidateServes confirmedServes s
  | .bootWatchdog  => Sys2Proof.Machine.execBootWatchdog  s
  | .fabricProgress station => Sys2Proof.Machine.execFabricProgress station s
  | .latchOpen  => Sys2Proof.Machine.execLatchOpen  s
  | .wake  => Sys2Proof.Machine.execWake  s
  | .leaveReset w => Sys2Proof.Machine.execLeaveReset w s
  | .resetN  => Sys2Proof.Machine.execResetN  s
  | .prsntNBreak  => Sys2Proof.Machine.execPrsntNBreak  s
  | .stageTaken n millivolts => Sys2Proof.Machine.execStageTaken n millivolts s
  | .stageLeft n millivolts => Sys2Proof.Machine.execStageLeft n millivolts s
  | .overvoltage v => Sys2Proof.Machine.execOvervoltage v s
  | .inputLost  => Sys2Proof.Machine.execInputLost  s
  | .powerControl v => Sys2Proof.Machine.execPowerControl v s
  | .braceAssert  => Sys2Proof.Machine.execBraceAssert  s
  | .braceRelease  => Sys2Proof.Machine.execBraceRelease  s
  | .overcurrent  => Sys2Proof.Machine.execOvercurrent  s
  | .overcurrentRelease milliwatts => Sys2Proof.Machine.execOvercurrentRelease milliwatts s
  | .sensorRead r meanFlow => Sys2Proof.Machine.execSensorRead r meanFlow s
  | .sensorSilent which => Sys2Proof.Machine.execSensorSilent which s
  | .flowForecast milliwatts => Sys2Proof.Machine.execFlowForecast milliwatts s
  | .flowLow derate => Sys2Proof.Machine.execFlowLow derate s
  | .inletHigh shoreAll => Sys2Proof.Machine.execInletHigh shoreAll s
  | .inletClear  => Sys2Proof.Machine.execInletClear  s
  | .coolantStop outletRise => Sys2Proof.Machine.execCoolantStop outletRise s
  | .coolantRecover  => Sys2Proof.Machine.execCoolantRecover  s
  | .thermalSample diodes packages => Sys2Proof.Machine.execThermalSample diodes packages s
  | .sensorDisagree spot first second millikelvin => Sys2Proof.Machine.execSensorDisagree spot first second millikelvin s
  | .trip spot diode => Sys2Proof.Machine.execTrip spot diode s
  | .tokenRefill code => Sys2Proof.Machine.execTokenRefill code s
  | .stampMark  => Sys2Proof.Machine.execStampMark  s
  | .scribeFlush  => Sys2Proof.Machine.execScribeFlush  s
  | .referenceLoss  => Sys2Proof.Machine.execReferenceLoss  s
  | .referenceReturn  => Sys2Proof.Machine.execReferenceReturn  s
  | .secondMark  => Sys2Proof.Machine.execSecondMark  s
  | .markMissing  => Sys2Proof.Machine.execMarkMissing  s
  | .crossingTimeout firmware => Sys2Proof.Machine.execCrossingTimeout firmware s
  | .lanesLocked l t2 => Sys2Proof.Machine.execLanesLocked l t2 s
  | .consistencyCheckFail  => Sys2Proof.Machine.execConsistencyCheckFail  s
  | .overvoltageClear  => Sys2Proof.Machine.execOvervoltageClear  s
  | .braceMinimumHoldEnd  => Sys2Proof.Machine.execBraceMinimumHoldEnd  s
  | .bottomTreeBuilt  => Sys2Proof.Machine.execBottomTreeBuilt  s

end Sys2Proof.Machine
end

