-- ==== Sys2Proof/Safety.lean ====
section
/-! DEFINITION. What counts as a safe run, in the terms that claims use. -/

namespace Sys2Proof.Machine

/-- Main memory is in its canonical form: addresses rise strictly, and no listed byte is one that an unlisted address reads as. -/
def State.MemoryCanonical (s : State) : Prop := Memory.wf s.mem = true

/-! ## Core instructions -/

/-- The command by which a core issues an instruction, with what the error codes of its memories find. -/
def Op.instr (o : Op) (c : Fin 8192) (f : Fields) (e : Sram := {}) : Instr :=
  match o with
  | .add => .add ⟨c, e⟩ f
  | .sub => .sub ⟨c, e⟩ f
  | .and => .and ⟨c, e⟩ f
  | .or => .or ⟨c, e⟩ f
  | .xor => .xor ⟨c, e⟩ f
  | .shl => .shl ⟨c, e⟩ f
  | .shr => .shr ⟨c, e⟩ f
  | .sar => .sar ⟨c, e⟩ f
  | .mul => .mul ⟨c, e⟩ f
  | .mulh => .mulh ⟨c, e⟩ f
  | .setp => .setp ⟨c, e⟩ f
  | .plog => .plog ⟨c, e⟩ f
  | .li => .li ⟨c, e⟩ f
  | .sel => .sel ⟨c, e⟩ f
  | .min => .min ⟨c, e⟩ f
  | .max => .max ⟨c, e⟩ f
  | .ldw => .ldw ⟨c, e⟩ f
  | .ldh => .ldh ⟨c, e⟩ f
  | .ldb => .ldb ⟨c, e⟩ f
  | .stw => .stw ⟨c, e⟩ f
  | .sth => .sth ⟨c, e⟩ f
  | .stb => .stb ⟨c, e⟩ f
  | .br => .br ⟨c, e⟩ f
  | .bri => .bri ⟨c, e⟩ f
  | .loop => .loop ⟨c, e⟩ f
  | .brk => .brk ⟨c, e⟩ f
  | .vadd => .vadd ⟨c, e⟩ f
  | .vsub => .vsub ⟨c, e⟩ f
  | .vmul => .vmul ⟨c, e⟩ f
  | .vfma => .vfma ⟨c, e⟩ f
  | .vmin => .vmin ⟨c, e⟩ f
  | .vmax => .vmax ⟨c, e⟩ f
  | .vand => .vand ⟨c, e⟩ f
  | .vor => .vor ⟨c, e⟩ f
  | .vxor => .vxor ⟨c, e⟩ f
  | .vshl => .vshl ⟨c, e⟩ f
  | .vshr => .vshr ⟨c, e⟩ f
  | .vcmp => .vcmp ⟨c, e⟩ f
  | .vsel => .vsel ⟨c, e⟩ f
  | .vcvt => .vcvt ⟨c, e⟩ f
  | .vred => .vred ⟨c, e⟩ f
  | .vperm => .vperm ⟨c, e⟩ f
  | .vld => .vld ⟨c, e⟩ f
  | .vst => .vst ⟨c, e⟩ f
  | .vldx => .vldx ⟨c, e⟩ f
  | .vstx => .vstx ⟨c, e⟩ f
  | .vins => .vins ⟨c, e⟩ f
  | .vext => .vext ⟨c, e⟩ f
  | .vbcst => .vbcst ⟨c, e⟩ f
  | .vnl => .vnl ⟨c, e⟩ f
  | .vflr => .vflr ⟨c, e⟩ f
  | .vfrac => .vfrac ⟨c, e⟩ f
  | .vldexp => .vldexp ⟨c, e⟩ f
  | .tmma => .tmma ⟨c, e⟩ f
  | .tmmac => .tmmac ⟨c, e⟩ f
  | .tclr => .tclr ⟨c, e⟩ f
  | .tjoin => .tjoin ⟨c, e⟩ f
  | .drain => .drain ⟨c, e⟩ f
  | .exportTile => .exportTile ⟨c, e⟩ f
  | .swait => .swait ⟨c, e⟩ f
  | .srel => .srel ⟨c, e⟩ f
  | .movd => .movd ⟨c, e⟩ f
  | .barb => .barb ⟨c, e⟩ f
  | .bard => .bard ⟨c, e⟩ f
  | .waitf => .waitf ⟨c, e⟩ f
  | .tsync => .tsync ⟨c, e⟩ f
  | .mwait => .mwait ⟨c, e⟩ f
  | .tcoll => .tcoll ⟨c, e⟩ f
  | .lsend => .lsend ⟨c, e⟩ f
  | .nop => .nop ⟨c, e⟩ f
  | .mfs => .mfs ⟨c, e⟩ f
  | .halt => .halt ⟨c, e⟩ f
  | .trap => .trap ⟨c, e⟩ f

/-- Core `c` runs, its next instruction is `o` with fields `f`, and its guard holds (R100, R107). -/
def Issues (s : State) (c : Fin 8192) (o : Op) (f : Fields) : Prop :=
  (s.core c).run = .running ∧ fetch s c = .inr (o, f) ∧ (s.core c).guarded f = true

/-- `t` is `s` with core `c` become `k`, but for its count of cycles and the model's place in its free values: nothing else
of the module has changed. -/
def State.Becomes (s : State) (c : Nat) (k : Core) (t : State) : Prop :=
  ∃ n cycles, t = { s.setCore c { k with cycles } with free := n }

/-- A command completes, and core `c` has become `k` by it. -/
def Gives (i : Instr) (s : State) (c : Nat) (k : Core) : Prop := ∃ t, exec i s = .next t ∧ s.Becomes c k t

/-- A command completes with core `c` stopped by a fault at its present instruction (R108). -/
def Faults (i : Instr) (s : State) (c : Nat) (code : Byte) (aux : Half) : Prop :=
  exec i s = .next (s.setCore c ((s.core c).fault code (s.core c).pc aux))

/-- Bytes `a` to `a + n − 1` of a core's scratchpad can be accessed in place: they lie in it, `a` is a multiple of `al`, and
SECDED corrects every 16-byte word that they touch (R91, R93, R126). -/
def Core.Accessible (k : Core) (a n al : Nat) : Prop :=
  a + n ≤ 0x1_8000 ∧ a % al = 0 ∧ ∀ w, 16 * w < a + n → a < 16 * w + 16 → w ∉ k.badWords

/-- The lanes of a vector access can be accessed: each lies in the scratchpad and is a multiple of the element width, and
lane 0 is a multiple of 16 where `first` says so (R93, R131). -/
def LanesFit (n : Nat) (first : Bool) (ls : List (Nat × Nat)) : Prop :=
  ∀ x ∈ ls, x.2 + n ≤ 0x1_8000 ∧ x.2 % n = 0 ∧ (first = true → x.1 = 0 → x.2 % 16 = 0)

/-- The scratchpad of `k'` is that of `k` after `n` writes in turn, write `e` of the number `num e` to the `(span e).2` bytes from `(span e).1`:
each byte holds what the last write of it left, and every other byte is as it was. -/
def Core.Wrote (k k' : Core) (n : Nat) (span : Nat → Nat × Nat) (num : Nat → Nat) : Prop :=
  let within (e x : Nat) : Prop := (span e).1 ≤ x ∧ x < (span e).1 + (span e).2
  (∀ e x, e < n → within e x → (∀ e', e < e' → e' < n → ¬within e' x) →
    byteAt k'.scratch x = BitVec.ofNat 8 (num e / 256 ^ (x - (span e).1))) ∧
  (∀ x, (∀ e < n, ¬within e x) → byteAt k'.scratch x = byteAt k.scratch x)

/-- `k'` is `k` after it has read the entries `read` for a drain or export: an entry's K sets the core's kerf status, and those of the
tiles that `cleared` names are cleared, and no other (R72, R134). -/
def Core.Drained (k k' : Core) (read : List Entry) (cleared : Nat → Bool) : Prop :=
  k'.kerf = (k.kerf || read.any (·.k)) ∧
  ∀ t i j, i < 16 → j < 16 → k'.entry t i j = if cleared t then {} else k.entry t i j

/-! ## Packets -/

/-- A packet of kind `kind` that reaches link `l` is for this module, and for the job that partition `p` holds, in its epoch: the link
carries packets, the header keeps R264, and it names this module (R274, R276). -/
def State.Takes (s : State) (l : Fin 6) (kind : Byte) (h : Header) (p : Nat) : Prop :=
  s.linkUp l = true ∧ s.pins.departed = false ∧ s.pins.inReset = false ∧ validPacket l kind h = true ∧
    s.ownIndex = some h.hop.toNat ∧ s.ownIndex = some h.dstMod.toNat ∧ h.dstRack.toNat = s.rack ∧ s.jobPart h.job = some p ∧
    h.epoch.toNat = s.getN Obj.jobEpoch (p + 1)

/-- The command by which a packet of a kind arrives at a link. -/
def packetArrives (l : Fin 6) (kind : Byte) (h : Header) (data : Bytes) : Option Instr :=
  if kind = kRead then some (.read l h)
  else if kind = kWrite then some (.write l h data)
  else if kind = kReadReply then some (.readReply l h data)
  else if kind = kWriteReply then some (.writeReply l h)
  else if kind = kChunk then some (.chunk l h data)
  else if kind = kChunkAck then some (.chunkAck l h)
  else if kind = kChunkCredit then some (.chunkCredit l h)
  else if kind = kChunkCount then some (.chunkCount l h)
  else none

/-! ## Queue commands -/

/-- Queue `q` dispatches `c`, a command of class `cls` and op `op`, to partition `p`, which is in service; a boundary command has its partition's
boundary or its turn (R314, R317). -/
def State.Dispatches (s : State) (q cls op : Nat) (c : Cmd) (p : Nat) : Prop :=
  s.ready q = some c ∧ c.cls = cls ∧ c.op = op ∧ (s.queue q).part = p ∧ s.inService p = true ∧
    (c.boundary = true →
      (s.part p).boundary = some (q, c.seq) ∨ ((s.part p).boundary = none ∧ s.turnOf p = some q))

/-- The state in which a dispatched command runs: a boundary command that takes the boundary takes its queue's turn (R314). -/
def State.dispatched (s : State) (q : Nat) (c : Cmd) (p : Nat) : State :=
  if c.boundary = true ∧ (s.part p).boundary = none then takeTurn s p q else s

/-! ## Messages and raising commands -/

/-- A datagram reaches the management port, which serves it (R330, R484). -/
def State.Hears (s : State) (o : Origin) : Prop :=
  o.service = false ∧ s.mgmtPort = true ∧ accepted s o (s.getN Obj.comUdpPort 0) = true

/-- Whom an answer at the management port goes to: the source of the datagram, and its session. -/
def asker (o : Origin) (session : Word) : Holder := ⟨0, o.addr, o.port, session⟩

/-- A well-formed version 2 message of op `op` reaches the management port in the session of place `i`, with the next sequence (R332, R341). -/
def State.HearsIn (s : State) (o : Origin) (m : Msg) (op : Byte) (i : Nat) : Prop :=
  s.Hears o ∧ m.version = 2 ∧ m.op = op ∧ malformed2 m = false ∧ m.session ≠ 0 ∧
    s.findSession (asker o 0) m.session = some i ∧ (s.session i).lastSeq.toNat < m.sequence.toNat

/-- The whole of a legal value is written to an object, in one segment, in an OPEN session (R323, R334, R336). -/
def State.Writes (s : State) (o : Origin) (m : Msg) (i : Nat) (r : ObjRow) : Prop :=
  s.HearsIn o m 2 i ∧ m.offset = 0 ∧ m.flags = 1 ∧ (s.session i).phase = 2 ∧ objRow m.index.toNat m.sub.toNat = some r ∧
    writeBarred s ⟨0, some (s.session i).root, true⟩ r m.sub.toNat = none ∧ valueFails s r m.sub.toNat m.data = none ∧
    (m.noFlash = true → persists r = false)

/-- Port `n` writes a raising command's code, and it is performed: the port owns raising, no other step or retrain keeps it from running, and it is
in order (R349 to R351). -/
def State.Commands (s : State) (n : Fin 4) (code : Nat) : Prop :=
  s.hears n Reg.rsCmd = true ∧ s.pins.departed = false ∧ s.mayOwn n = true ∧ s.rsBusy code = false ∧ s.rsAllowed code = true

/-- The state in which a raising command begins: the port has taken ownership, the command is its last, and RS_RESULT reads RUNNING. -/
def State.commanded (s : State) (n : Fin 4) (code : Nat) : State :=
  let t := takeOwner s n
  setResultOf { t with raising := { t.raising with cmd := put 0 t.raising.cmd n code } } n 1 0

/-! ## Invariants -/

/-- What the queues of the cores and bays hold stays within what the part has room for: four loops, four tensor entries, eight transfers of
a core and four requests of a bay (R84, R88, R90, R236). -/
def State.WithinLimits (s : State) : Prop :=
  (∀ c, (s.core c).loops.length ≤ 4 ∧ (s.core c).tq.length ≤ 4 ∧ (s.core c).xfers.length ≤ 8) ∧ ∀ b, (s.bay b).posts.length ≤ 4

end Sys2Proof.Machine
end

