-- ==== Sys2Proof/WellFormed.lean ====
section
/-! DEFINITION. Which commands the outside can send: the facts about a command's operands that their types do not already fix. Every
meaning is total and takes a command whether or not it is well-formed. -/

namespace Sys2Proof

/-- Flits that `n` data bytes take (R264). -/
def flitCount (n : Nat) : Nat := (n + 63) / 64

/-- A packet's data is at most 4,096 bytes and fills the flits that its header counts (R264, R265). -/
def Header.fits (h : Header) (data : Bytes) : Bool :=
  decide (data.length ≤ 4096) && decide (h.flits.toNat = flitCount data.length)

/-- A control flit carries one value for each of the six VCs (R267, R272, R273). -/
def perVc (xs : List Half) : Bool := decide (xs.length = 6)

/-- A burst request covers at least one byte of one 64-byte burst, and a write carries as many bytes as it says (R185). -/
def MemReq.wellFormed (q : MemReq) : Bool :=
  decide (1 ≤ q.len) && decide (q.addr % 64 + q.len ≤ 64) && (match q.write with
    | some bs => decide (bs.length = q.len)
    | none => true)

/-- A message's data is at most what a datagram of 1,048 bytes holds beside its header, and a short one has none (R330 to R332). -/
def Msg.wellFormed (m : Msg) : Bool :=
  decide (m.data.length ≤ (if m.version = 2 then 1024 else 1040)) && (!m.short || m.data.isEmpty)

/-- A segment of an update is at most 1,024 bytes (R384). -/
def UpdMsg.wellFormed (m : UpdMsg) : Bool := decide (m.data.length ≤ 1024)

/-- A codeword has 544 symbols of 10 bits, each wrong one with at least one wrong bit; FEC corrects at most 15 wrong symbols (R262, R263). -/
def Codeword.wellFormed (w : Codeword) : Bool :=
  decide (w.symbols ≤ 544) && decide (w.symbols ≤ w.errors) && decide (w.errors ≤ 10 * w.symbols) && (!w.corrected || decide (w.symbols ≤ 15))

/-- What the error codes of a core find lies in its memories: 6,144 words of the scratchpad, 512 of a slot, 2,048 instructions, and 256
entries of the tables, and in the 32 banks of 512 rows of its bay's buffer (R84, R91, R132, R353). -/
def Sram.wellFormed (e : Sram) : Bool :=
  e.scratch.all (fun w => decide (w < 6144)) && e.slots.all (fun w => decide (w.1 < 2) && decide (w.2 < 512)) &&
    e.imem.all (fun w => decide (w < 2048)) && e.tables.all (fun w => decide (w < 256)) &&
    e.buffer.all fun w => decide (w.1 < 32) && decide (w.2 < 512)

/-- Whether a command's operands are possible. -/
def Instr.wellFormed : Instr → Bool
  | .add c _ | .sub c _ | .and c _ | .or c _ | .xor c _ | .shl c _ | .shr c _ | .sar c _ | .mul c _ | .mulh c _ | .setp c _
  | .plog c _ | .li c _ | .sel c _ | .min c _ | .max c _ | .ldw c _ | .ldh c _ | .ldb c _ | .stw c _ | .sth c _ | .stb c _
  | .br c _ | .bri c _ | .loop c _ | .brk c _ | .vadd c _ | .vsub c _ | .vmul c _ | .vfma c _ | .vmin c _ | .vmax c _ | .vand c _
  | .vor c _ | .vxor c _ | .vshl c _ | .vshr c _ | .vcmp c _ | .vsel c _ | .vcvt c _ | .vred c _ | .vperm c _ | .vld c _
  | .vst c _ | .vldx c _ | .vstx c _ | .vins c _ | .vext c _ | .vbcst c _ | .vnl c _ | .vflr c _ | .vfrac c _ | .vldexp c _
  | .tmma c _ | .tmmac c _ | .tclr c _ | .tjoin c _ | .drain c _ | .exportTile c _ | .tensorQueueEntry c | .swait c _ | .srel c _
  | .movd c _ | .barb c _ | .bard c _ | .waitf c _ | .tsync c _ | .mwait c _ | .tcoll c _ | .lsend c _ | .nop c _ | .mfs c _
  | .halt c _ | .trap c _ | .transferComplete c _ => c.found.wellFormed
  | .stepLoad b => b.found.all fun e => e.2.wellFormed
  | .controllerRequest _ q _ => q.wellFormed
  | .codeword _ w => w.wellFormed
  | .write _ h data => h.fits data
  | .readReply _ h data => h.fits data
  | .chunk _ h data => h.fits data
  | .ident _ i => perVc i.bufs
  | .credit _ freed => perVc freed
  | .audit _ sent => perVc sent
  | .berWindow _ errors bits _ => decide (errors ≤ bits)
  | .bar4Read _ _ len => decide (1 ≤ len)
  | .bar4Write _ _ data => !data.isEmpty
  | .registerWrite _ offset _ => decide (offset < 0x1_0000)
  | .dbSqTail _ _ _ entries => entries.all fun e => decide (e.length = 64)
  | .thermalSample diodes packages => diodes.all (fun d => decide (d.1 < 224)) && decide (packages.length = 24)
  | .updData _ m => m.wellFormed
  | .objectRead _ m => m.wellFormed
  | .objectWrite _ m => m.wellFormed
  | _ => true

end Sys2Proof
end

