-- ==== Sys2Proof/Certificates/Slice0/Obligations.lean ====
section
/-! DEFINITION. What the provers are asked to prove of the model. -/

open Sys2Proof Sys2Proof.Machine

/-! ## Core instructions -/

/-- R125: gd, or pd for SETP and PLOG, := the result of the operation, modulo 2^32, and the next instruction follows. The second operand is gb or
the immediate by m[0], and a word with a nonzero reserved field or bit is no instruction. -/
def Obligations.ScalarResults : Prop :=
  (∀ (c : Fin 8192) (f : Fields) (s : State),
      let k := s.core c
      let x := k.getG f.a
      let y := if f.m.getLsbD 0 then f.imm else k.getG f.b
      let gives (i : Instr) (v : Word) : Prop := Gives i s c (k.setG f.d v).next
      (Issues s c .add f → gives (.add ⟨c, {}⟩ f) (x + y)) ∧
      (Issues s c .sub f → gives (.sub ⟨c, {}⟩ f) (x - y)) ∧
      (Issues s c .and f → gives (.and ⟨c, {}⟩ f) (x &&& y)) ∧
      (Issues s c .or f → gives (.or ⟨c, {}⟩ f) (x ||| y)) ∧
      (Issues s c .xor f → gives (.xor ⟨c, {}⟩ f) (x ^^^ y)) ∧
      (Issues s c .shl f → gives (.shl ⟨c, {}⟩ f) (x <<< (y.toNat % 32))) ∧
      (Issues s c .shr f → gives (.shr ⟨c, {}⟩ f) (x >>> (y.toNat % 32))) ∧
      (Issues s c .sar f → gives (.sar ⟨c, {}⟩ f) (x.sshiftRight (y.toNat % 32))) ∧
      (Issues s c .mul f → gives (.mul ⟨c, {}⟩ f) (BitVec.ofNat 32 (x.toNat * y.toNat))) ∧
      (Issues s c .mulh f → gives (.mulh ⟨c, {}⟩ f)
        (if f.m.getLsbD 1 then BitVec.ofNat 32 (x.toNat * y.toNat / 2 ^ 32) else BitVec.ofInt 32 (x.toInt * y.toInt / 2 ^ 32))) ∧
      (Issues s c .li f → gives (.li ⟨c, {}⟩ f) f.imm) ∧
      (Issues s c .sel f → gives (.sel ⟨c, {}⟩ f) (if k.getP (bits f.imm.toNat 0 3) then x else k.getG f.b)) ∧
      (Issues s c .min f → gives (.min ⟨c, {}⟩ f)
        (if f.m.getLsbD 1 then (if y.toNat < x.toNat then y else x) else (if y.toInt < x.toInt then y else x))) ∧
      (Issues s c .max f → gives (.max ⟨c, {}⟩ f)
        (if f.m.getLsbD 1 then (if x.toNat < y.toNat then y else x) else (if x.toInt < y.toInt then y else x)))) ∧
  (∀ (c : Fin 8192) (f : Fields) (s : State),
      let k := s.core c
      let x := k.getG f.a
      let y := if f.m.getLsbD 0 then f.imm else k.getG f.b
      (Issues s c .setp f → Gives (.setp ⟨c, {}⟩ f) s c (k.setP f.d.toNat
        (match bits f.m.toNat 1 3 with
          | 0 => decide (x = y)
          | 1 => decide (x ≠ y)
          | 2 => decide (x.toInt < y.toInt)
          | 3 => decide (x.toNat < y.toNat)
          | 4 => decide (y.toInt ≤ x.toInt)
          | _ => decide (y.toNat ≤ x.toNat))).next) ∧
      (Issues s c .plog f → Gives (.plog ⟨c, {}⟩ f) s c (k.setP f.d.toNat
        (let p := k.getP f.a.toNat
         let q := k.getP f.b.toNat
         match bits f.m.toNat 0 2 with
          | 0 => p && q
          | 1 => p || q
          | 2 => p != q
          | _ => p && !q)).next)) ∧
  (∀ (w : Dword) (o : Op) (f : Fields), decodeWord w = some (o, f) →
      (o ∈ [Op.add, .sub, .and, .or, .xor, .shl, .shr, .sar, .mul, .mulh, .setp, .min, .max] →
        (f.m.getLsbD 0 = false → f.imm = 0) ∧ (f.m.getLsbD 0 = true → f.b = 0)) ∧
      (o ∈ [Op.add, .sub, .and, .or, .xor, .shl, .shr, .sar, .mul] → f.m.toNat < 2) ∧
      (o ∈ [Op.mulh, .min, .max, .plog] → f.m.toNat < 4) ∧ (o = .setp → f.m.toNat < 12) ∧ (o = .li ∨ o = .sel → f.m = 0))

/-- R84: a write of a g register or a predicate is read back and changes no other; writes to g0 and p0 are discarded, g0 reads zero and p0 reads
true. -/
def Obligations.RegisterFile : Prop :=
  ∀ (k : Core) (r q : BitVec 5) (v : Word) (i j : Nat) (b : Bool),
    (r ≠ 0 → (k.setG r v).getG r = v) ∧ (q ≠ r → (k.setG r v).getG q = k.getG q) ∧
    k.getG 0 = 0 ∧ k.setG 0 v = k ∧
    (i ≠ 0 → (k.setP i b).getP i = b) ∧ (j ≠ i → (k.setP i b).getP j = k.getP j) ∧
    k.getP 0 = true ∧ k.setP 0 b = k

/-- R101, R123, R127: past an instruction at which no active loop ends the PC advances by one; where the innermost loop ends there, its back edge
is taken while more than one pass remains, and else it is popped and the next loop decides. A branch inside the innermost active loop's body goes
to its target; LOOP pushes an entry, or skips the body for a count of 0; BRK pops the innermost loop and goes on past its end. Where it rests on a
choice of the model's, entries 6 and 81 of the log say so. -/
def Obligations.BranchesAndLoops : Prop :=
  (∀ (k : Core) (l : Loop) (ls : List Loop),
      (k.loops = [] → k.next = { k with pc := k.pc + 1 }) ∧
      (k.loops = l :: ls → l.stop ≠ k.pc → k.next = { k with pc := k.pc + 1 }) ∧
      (k.loops = l :: ls → l.stop = k.pc → 1 < l.count →
        k.next = { k with loops := { l with count := l.count - 1 } :: ls, pc := l.start }) ∧
      (k.loops = l :: ls → l.stop = k.pc → l.count ≤ 1 → k.next = ({ k with loops := ls }).next)) ∧
  (∀ (c : Fin 8192) (f : Fields) (s : State),
      let k := s.core c
      let free : Prop := ∀ l ∈ k.loops, l.stop ≠ k.pc
      let inside (t : Nat) : Prop := ∀ l ∈ k.loops.head?, l.start ≤ t ∧ t ≤ l.stop
      let t := bits f.imm.toNat 0 11
      let u := bits (k.getG f.a).toNat 0 11
      let n := if f.m.getLsbD 0 then bits f.imm.toNat 16 16 else (k.getG f.a).toNat
      (Issues s c .br f → free → inside t → Gives (.br ⟨c, {}⟩ f) s c { k with pc := t }) ∧
      (Issues s c .bri f → free → inside u → Gives (.bri ⟨c, {}⟩ f) s c { k with pc := u }) ∧
      (Issues s c .loop f → free → k.loops.length < 4 → k.pc < t → (∀ l ∈ k.loops.head?, t ≤ l.stop) →
        (n ≠ 0 → Gives (.loop ⟨c, {}⟩ f) s c { k with loops := ⟨k.pc + 1, t, n⟩ :: k.loops, pc := k.pc + 1 }) ∧
        (n = 0 → Gives (.loop ⟨c, {}⟩ f) s c ({ k with pc := t }).next)) ∧
      (∀ l ls, Issues s c .brk f → free → k.loops = l :: ls →
        Gives (.brk ⟨c, {}⟩ f) s c ({ k with loops := ls, pc := l.stop }).next))

/-- R126: a load writes gd with the bytes at ga + imm, LDH and LDB zero-extended, or sign-extended with m[0] = 1; a store writes the low bytes of
gb there, in little-endian order, and no other byte of the scratchpad. An address past the scratchpad, a misaligned one and one of a word that
cannot be corrected fault, in that order, and nothing else changes; m[0] is reserved in stores. -/
def Obligations.ScalarMemory : Prop :=
  (∀ (c : Fin 8192) (f : Fields) (s : State),
      let k := s.core c
      let a := (k.getG f.a + f.imm).toNat
      (Issues s c .ldw f → k.Accessible a 4 4 →
        Gives (.ldw ⟨c, {}⟩ f) s c (k.setG f.d (BitVec.ofNat 32 (readNum k.scratch a 4))).next) ∧
      (Issues s c .ldh f → k.Accessible a 2 2 →
        let h : Half := BitVec.ofNat 16 (readNum k.scratch a 2)
        Gives (.ldh ⟨c, {}⟩ f) s c (k.setG f.d (if f.m.getLsbD 0 then h.signExtend 32 else h.setWidth 32)).next) ∧
      (Issues s c .ldb f → k.Accessible a 1 1 →
        let b : Byte := byteAt k.scratch a
        Gives (.ldb ⟨c, {}⟩ f) s c (k.setG f.d (if f.m.getLsbD 0 then b.signExtend 32 else b.setWidth 32)).next)) ∧
  (∀ (c : Fin 8192) (f : Fields) (s : State),
      let k := s.core c
      let a := (k.getG f.a + f.imm).toNat
      let v := (k.getG f.b).toNat
      let stores (i : Instr) (n : Nat) : Prop :=
        Gives i s c ((k.store a (leBytes n v)).overtake [(a, n)]).next ∧
        ∀ x, byteAt (k.store a (leBytes n v)).scratch x =
          if a ≤ x ∧ x < a + n then BitVec.ofNat 8 (v / 256 ^ (x - a)) else byteAt k.scratch x
      (Issues s c .stw f → k.Accessible a 4 4 → stores (.stw ⟨c, {}⟩ f) 4) ∧
      (Issues s c .sth f → k.Accessible a 2 2 → stores (.sth ⟨c, {}⟩ f) 2) ∧
      (Issues s c .stb f → k.Accessible a 1 1 → stores (.stb ⟨c, {}⟩ f) 1)) ∧
  (∀ (c : Fin 8192) (f : Fields) (s : State),
      let k := s.core c
      let a := (k.getG f.a + f.imm).toNat
      let faults (o : Op) (n : Nat) : Prop := Issues s c o f →
        (0x1_8000 ≤ a → Faults (o.instr c f) s c 0x02 0) ∧
        (a < 0x1_8000 → a % n ≠ 0 → Faults (o.instr c f) s c 0x03 0) ∧
        (a < 0x1_8000 → a % n = 0 → a / 16 ∈ k.badWords → Faults (o.instr c f) s c 0x09 0)
      faults .ldw 4 ∧ faults .ldh 2 ∧ faults .ldb 1 ∧ faults .stw 4 ∧ faults .sth 2 ∧ faults .stb 1) ∧
  (∀ (w : Dword) (o : Op) (f : Fields), decodeWord w = some (o, f) → o ∈ [Op.stw, .sth, .stb] → f.m.getLsbD 0 = false)

/-- R128, R130: the result of each vector operation, lane by lane. Where it rests on a choice of the model's, entry 80 of the log says so. -/
def Obligations.VectorResults : Prop :=
  ∀ (c : Fin 8192) (f : Fields) (s : State),
    let k := s.core c
    let x (i : Nat) : Word := k.lane f.a i
    let y (i : Nat) : Word := if f.m.getLsbD 1 then f.imm else k.lane f.b i
    let int : Bool := f.m.getLsbD 0
    let gives (i : Instr) (v : Nat → Word) : Prop := Gives i s c (k.setV f.d ((List.range 32).map v)).next
    (Issues s c .vadd f → gives (.vadd ⟨c, {}⟩ f) fun i => if int then x i + y i else fadd (x i) (y i)) ∧
    (Issues s c .vsub f → gives (.vsub ⟨c, {}⟩ f) fun i => if int then x i - y i else fsub (x i) (y i)) ∧
    (Issues s c .vmul f → gives (.vmul ⟨c, {}⟩ f) fun i => if int then x i * y i else fmul (x i) (y i)) ∧
    (Issues s c .vfma f → gives (.vfma ⟨c, {}⟩ f) fun i => ffma (x i) (y i) (k.lane f.d i)) ∧
    (Issues s c .vmin f → gives (.vmin ⟨c, {}⟩ f) fun i =>
      if !int then fmin (x i) (y i)
      else if f.m.getLsbD 2 then (if (y i).toNat < (x i).toNat then y i else x i)
      else (if (y i).toInt < (x i).toInt then y i else x i)) ∧
    (Issues s c .vmax f → gives (.vmax ⟨c, {}⟩ f) fun i =>
      if !int then fmax (x i) (y i)
      else if f.m.getLsbD 2 then (if (x i).toNat < (y i).toNat then y i else x i)
      else (if (x i).toInt < (y i).toInt then y i else x i)) ∧
    (Issues s c .vand f → gives (.vand ⟨c, {}⟩ f) fun i => x i &&& y i) ∧
    (Issues s c .vor f → gives (.vor ⟨c, {}⟩ f) fun i => x i ||| y i) ∧
    (Issues s c .vxor f → gives (.vxor ⟨c, {}⟩ f) fun i => x i ^^^ y i) ∧
    (Issues s c .vshl f → gives (.vshl ⟨c, {}⟩ f) fun i => x i <<< ((y i).toNat % 32)) ∧
    (Issues s c .vshr f → gives (.vshr ⟨c, {}⟩ f) fun i =>
      if f.m.getLsbD 2 then (x i).sshiftRight ((y i).toNat % 32) else x i >>> ((y i).toNat % 32)) ∧
    (Issues s c .vcmp f → ∃ v : Word, Gives (.vcmp ⟨c, {}⟩ f) s c (k.setG f.d v).next ∧ ∀ i < 32, v.getLsbD i =
      if int then compareInt (bits f.m.toNat 2 3) (x i) (y i) else compareFp (bits f.m.toNat 2 3) (x i) (y i)) ∧
    (Issues s c .vsel f → gives (.vsel ⟨c, {}⟩ f) fun i =>
      if (k.getG (f.imm.setWidth 5)).getLsbD i then x i else k.lane f.b i) ∧
    (Issues s c .vperm f → gives (.vperm ⟨c, {}⟩ f) fun i => x ((k.lane f.b i).toNat % 32)) ∧
    (Issues s c .vred f →
      let (op, unit) := reduction int (bits f.m.toNat 1 2)
      gives (.vred ⟨c, {}⟩ f) fun _ => tree op ((List.range 32).map fun i => if (k.getG f.b).getLsbD i then unit else x i))

/-- R129, R131, R132: conversion, lane moves, tables and range reduction. Where it rests on a choice of the model's, entries 31 and 80 of the log
say so. -/
def Obligations.LaneResults : Prop :=
  ∀ (c : Fin 8192) (f : Fields) (s : State),
    let k := s.core c
    let x (i : Nat) : Word := k.lane f.a i
    let tab := readBytes (s.row (rowOf c)).tables (1024 * bits f.imm.toNat 0 2) 1024
    let gives (i : Instr) (v : Nat → Word) : Prop := Gives i s c (k.setV f.d ((List.range 32).map v)).next
    (∀ src dst, Issues s c .vcvt f → fmtOf (bits f.imm.toNat 0 4) = some src → fmtOf (bits f.imm.toNat 4 4) = some dst →
      (roundingOf f.m ≠ .sr → gives (.vcvt ⟨c, {}⟩ f) fun i => convert src dst (roundingOf f.m) (f.m.getLsbD 2) 0 (x i)) ∧
      (roundingOf f.m = .sr → k.Accessible (k.getG f.b).toNat 32 16 → gives (.vcvt ⟨c, {}⟩ f) fun i =>
        convert src dst .sr (f.m.getLsbD 2) (k.srNumber (k.getG f.b).toNat 0 i) (x i))) ∧
    (Issues s c .vins f → gives (.vins ⟨c, {}⟩ f) fun i => if i = bits f.imm.toNat 0 5 then k.getG f.a else k.lane f.d i) ∧
    (Issues s c .vext f → Gives (.vext ⟨c, {}⟩ f) s c (k.setG f.d (x (bits f.imm.toNat 0 5))).next) ∧
    (Issues s c .vbcst f → gives (.vbcst ⟨c, {}⟩ f) fun _ => k.getG f.a) ∧
    (Issues s c .vnl f →
      (∀ i < 32, ∀ e ∈ entriesRead tab (x i), 64 * bits f.imm.toNat 0 2 + e ∉ k.badTables) →
      gives (.vnl ⟨c, {}⟩ f) fun i => nonlinear tab (x i)) ∧
    (Issues s c .vflr f → gives (.vflr ⟨c, {}⟩ f) fun i => ffloor (x i)) ∧
    (Issues s c .vfrac f → gives (.vfrac ⟨c, {}⟩ f) fun i => ffrac (x i)) ∧
    (Issues s c .vldexp f → gives (.vldexp ⟨c, {}⟩ f) fun i => fldexp (x i) (k.lane f.b i).toInt)

/-- R131: a vector load writes each enabled lane with its element, and a disabled lane keeps its contents; a vector store writes each enabled
lane's element, the higher lane where two address one element, and no other byte of the scratchpad, and no register changes. -/
def Obligations.VectorMemory : Prop :=
  (∀ (c : Fin 8192) (f : Fields) (s : State),
      let k := s.core c
      let n := laneBytes f
      let loads (i : Instr) (first : Bool) (ls : List (Nat × Nat)) : Prop :=
        LanesFit n first ls → (∀ x ∈ ls, ∀ w ∈ wordsIn x.2 n, w ∉ k.badWords) →
          Gives i s c (k.setV f.d ((List.range 32).map fun j =>
            match ls.lookup j with
            | some a =>
              let v := readNum k.scratch a n
              if f.m.getLsbD 2 then BitVec.ofInt 32 (signed (8 * n) v) else BitVec.ofNat 32 v
            | none => k.lane f.d j)).next
      (Issues s c .vld f → loads (.vld ⟨c, {}⟩ f) true (k.strideLanes f)) ∧
      (Issues s c .vldx f → loads (.vldx ⟨c, {}⟩ f) false (k.indexLanes f))) ∧
  (∀ (c : Fin 8192) (f : Fields) (s : State),
      let k := s.core c
      let n := laneBytes f
      let stores (i : Instr) (first : Bool) (ls : List (Nat × Nat)) : Prop :=
        LanesFit n first ls → (∀ w ∈ k.badWords, (∃ l ∈ ls, w ∈ wordsIn l.2 n) → coversWord n ls w = true) →
          ∃ mem written under, Gives i s c (Core.overtake { k with
              scratch := mem, written, under, badWords := k.badWords.filter fun w => !coversWord n ls w } (ls.map fun l => (l.2, n))).next ∧
            (∀ x, (∀ l ∈ ls, ¬(l.2 ≤ x ∧ x < l.2 + n)) → byteAt mem x = byteAt k.scratch x) ∧
            (∀ l ∈ ls, (∀ l' ∈ ls, l.1 < l'.1 → l'.2 ≠ l.2) → readBytes mem l.2 n = leBytes n (k.lane f.d l.1).toNat)
      (Issues s c .vst f → stores (.vst ⟨c, {}⟩ f) true (k.strideLanes f)) ∧
      (Issues s c .vstx f → stores (.vstx ⟨c, {}⟩ f) false (k.indexLanes f)))

/-- R88, R121, R133, R134, R138: an instruction of the tensor queue whose operands have no fault enters it at its tail, with its operands as they
stand, and stalls issue where the queue holds four entries. -/
def Obligations.TensorQueueEntries : Prop :=
  ∀ (c : Fin 8192) (f : Fields) (s : State),
    let k := s.core c
    let ga := (k.getG f.a).toNat
    let w := bits (k.getG f.b).toNat 0 13
    let enters (i : Instr) (op : TensorOp) : Prop :=
      (k.tq.length < 4 → Gives i s c ({ k with tq := k.tq ++ [(⟨k.pc, op⟩ : TensorEntry)] }).next) ∧ (4 ≤ k.tq.length → exec i s = .next s)
    let tile (rs last : Nat) : Prop := ga + 15 * rs + last ≤ 0x1_8000 ∧ ga % 16 = 0
    let sr : Prop := roundingOf f.m = .sr →
      (k.getG f.b).toNat + 272 ≤ 0x1_8000 ∧ (k.getG f.b).toNat % 16 = 0
    (∀ fa fw, tensorPair f.imm = some (fa, fw) → noFillComes s (rowOf c) = false → bits (k.getG f.b).toNat 14 18 = 0 →
      tile (stride (bits f.imm.toNat 18 12) (fa.rowBytes (tensorK f.imm))) (fa.rowBytes (tensorK f.imm)) →
      w + 16 * fw.rowBytes (tensorK f.imm) ≤ 8192 → w % 16 = 0 →
      (Issues s c .tmma f → enters (.tmma ⟨c, {}⟩ f) (.tmma false f.d.toNat (k.getG f.a) (k.getG f.b) f.imm)) ∧
      (Issues s c .tmmac f → enters (.tmmac ⟨c, {}⟩ f) (.tmma true f.d.toNat (k.getG f.a) (k.getG f.b) f.imm))) ∧
    (Issues s c .tclr f → enters (.tclr ⟨c, {}⟩ f) (.tclr f.d.toNat)) ∧
    (Issues s c .tjoin f → tile (stride (bits f.imm.toNat 0 12) 256) 256 →
      enters (.tjoin ⟨c, {}⟩ f) (.tjoin f.d.toNat (k.getG f.a) f.imm)) ∧
    (Issues s c .drain f → tile (drainShape f.imm).2.1 (drainShape f.imm).2.2 → sr →
      enters (.drain ⟨c, {}⟩ f) (.drain f.d.toNat (k.getG f.a) (k.getG f.b) f.imm f.m)) ∧
    (Issues s c .exportTile f → tile (stride (bits f.imm.toNat 8 12) 256) 256 →
      enters (.exportTile ⟨c, {}⟩ f) (.exportTile f.d.toNat (k.getG f.a) f.imm f.m)) ∧
    (Issues s c .srel f → noFillComes s (rowOf c) = false → enters (.srel ⟨c, {}⟩ f) (.srel (k.namedSlot f)))

/-- R71 to R78, R85, R95, R97, R121, R133, R134, R135, R136: the entry at the head of the tensor queue executes: a TMMA joins its products, a TCLR clears its tile, an
SREL empties its FULL slot, after which the row's next fill begins where it can; the entry leaves the queue, and the bay's barriers are settled
anew. Where stores that issued after a drain or export have written before it, each byte that both write ends with one of the two values, and what
the store left stays known for the drains after it. One that waits stays, and a fault names the entry's own PC. An export
writes each entry as XP128, a drain the codes of a row's entries, each rounded once, packed from the row's start, and a microscaled drain the codes
of the block that it names, under the block's scale, and the scale's byte; every other byte stays, the K of each entry read joins the kerf status,
and m[3] clears the tiles read. A TJOIN joins each entry with the XP128 value at its place, which an export's number gives back whole. A value
that a format has is written as it is, and an infinity or NaN as R78's table says. Where it
rests on a choice of the model's, entries 85, 87, 120, 122 and 130 of the log say so. -/
def Obligations.TensorQueueHead : Prop :=
  ∀ (c : Fin 8192) (s : State) (pc : Nat) (op : TensorOp) (rest : List TensorEntry),
    let k := s.core c
    k.run = .running → k.tq = ⟨pc, op⟩ :: rest →
    let gives (k' : Core) : Prop :=
      exec (.tensorQueueEntry ⟨c, {}⟩) s = .next (settle (s.setCore c k'.pop) (bayOf c))
    (∀ clear d ga gb imm fa fw, op = .tmma clear d ga gb imm → tensorPair imm = some (fa, fw) →
      let n := tensorK imm
      let rs := stride (bits imm.toNat 18 12) (fa.rowBytes n)
      let x := k.slot (bits gb.toNat 13 1)
      (∀ i < 16, ∀ w ∈ wordsIn (ga.toNat + i * rs) (fa.rowBytes n), w ∉ k.badWords) → x.fill = .full →
      (∀ w ∈ wordsIn (bits gb.toNat 0 13) (16 * fw.rowBytes n), w ∉ x.badWords) →
      gives ((if clear then k.clearTile d else k).multiply fa fw d n ga.toNat rs (bits gb.toNat 13 1) (bits gb.toNat 0 13))) ∧
    (∀ d, op = .tclr d → gives (k.clearTile d)) ∧
    (∀ n, op = .srel n → (k.slot n).fill = .full →
      exec (.tensorQueueEntry ⟨c, {}⟩) s = .next (beginFill (settle (s.setCore c (k.setSlot n {}).pop) (bayOf c)) (rowOf c))) ∧
    (∀ k', execute k (noFillComes s (rowOf c)) op = .done k' → k'.pop.tq = rest ∧
      (op.releases = false → (op.writes = false ∨ k.later = []) → gives k') ∧
      (op.writes = true → k.later ≠ [] → ∃ mem under n,
        let m := { k' with scratch := mem, under }
        exec (.tensorQueueEntry ⟨c, {}⟩) s = .next (settle { s.setCore c m.pop with free := n } (bayOf c)) ∧
        ∀ x, ((∃ r ∈ k.later, r.1 ≤ x ∧ x < r.1 + r.2.1) → m.stored x = k.stored x) ∧
          if (∃ r ∈ k.later, r.1 ≤ x ∧ x < r.1 + r.2.1) ∧ ∃ r ∈ k.footprint op, r.1 ≤ x ∧ x < r.1 + r.2 then
            byteAt mem x = byteAt k'.scratch x ∨ byteAt mem x = k.stored x
          else byteAt mem x = byteAt k'.scratch x)) ∧
    (∀ k', execute k (noFillComes s (rowOf c)) op = .done k' →
      (∀ d ga imm, op = .tjoin d ga imm → k'.scratch = k.scratch ∧ ∀ t i j, i < 16 → j < 16 →
        k'.entry t i j = if t = d then
            joinXp128 (k.entry d i j) (readNum k.scratch (ga.toNat + i * stride (bits imm.toNat 0 12) 256 + 16 * j) 16)
          else k.entry t i j) ∧
      (∀ d ga imm m, op = .exportTile d ga imm m →
        k.Drained k' (k.tile d) (fun t => m.getLsbD 3 && t == d) ∧ ∃ num,
        (∀ i j, i < 16 → j < 16 → let x := k.entry d i j
          num (16 * i + j) / 2 ^ 16 = x.s.toNat ∧ bits (num (16 * i + j)) 6 10 = x.e.toNat ∧ bit (num (16 * i + j)) 5 = x.k ∧
            bits (num (16 * i + j)) 0 5 = 0) ∧
        k.Wrote k' 256 (fun n => (ga.toNat + n / 16 * stride (bits imm.toNat 8 12) 256 + 16 * (n % 16), 16)) num) ∧
      (∀ d ga gb imm m f, op = .drain d ga gb imm m → fmtOf (bits imm.toNat 0 4) = some f →
        let mode := roundingOf m
        let w := f.width
        let r (i j : Nat) : Nat := if mode = .sr then k.srNumber gb.toNat i j else 0
        (f.mx = false →
          k.Drained k' (k.tile d) (fun t => m.getLsbD 3 && t == d) ∧ ∃ num,
          (∀ i j, i < 16 → j < 16 → bits (num i) (w * j) w = encodeElem f mode (m.getLsbD 2) (r i j) (k.entry d i j).value) ∧
          k.Wrote k' 16 (fun i => (ga.toNat + i * stride (bits imm.toNat 8 12) (2 * w), 2 * w)) num) ∧
        (∀ emax : Int, (f, emax) ∈ [(Fmt.mxfp4, 2), (.mxE2m3, 2), (.mxE3m2, 4), (.mxE4m3, 8), (.mxE5m2, 15)] →
          let blk := bits imm.toNat 4 4
          let row (i : Nat) : Nat := ga.toNat + i * stride (bits imm.toNat 8 12) (64 * w + 16)
          k.Drained k' (k.tile d ++ k.tile (d + 1)) (fun t => m.getLsbD 3 && (t == d || t == d + 1)) ∧ ∃ num scale : Nat → Nat,
          (∀ i < 16, let x (j : Nat) : Machine.Num := (k.entry (d + j / 16) i (j % 16)).value
            ((∃ j < 32, (x j).special = true) → scale i = 0xFF ∧ ∀ j < 32, bits (num i) (w * j) w = 0) ∧
            ((∀ j < 32, (x j).special = false) → ∃ X : Int,
              ((∀ j m e, j < 32 → x j = .fin m e → m = 0) → X = -127) ∧
              (∀ l m e : Int, ∀ j < 32, x j = .fin m e → m ≠ 0 → floorLog m.natAbs e = l →
                (∀ j' m' e', j' < 32 → x j' = .fin m' e' → m' ≠ 0 → floorLog m'.natAbs e' ≤ l) → X = max (-127) (min 127 (l - emax))) ∧
              (scale i : Int) = X + 127 ∧
              ∀ j < 32, bits (num i) (w * j) w = encodeElem f mode true (r i j) ((x j).scale (-X)))) ∧
          k.Wrote k' 32 (fun n => if n % 2 = 0 then (row (n / 2) + blk * (4 * w), 4 * w) else (row (n / 2) + 64 * w + blk, 1))
            (fun n => if n % 2 = 0 then num (n / 2) else scale (n / 2))))) ∧
    (k.badWords = [] → ∀ d ga gb imm m, op = .tjoin d ga imm ∨ op = .exportTile d ga imm m ∨ op = .drain d ga gb imm m →
      ∃ k', execute k (noFillComes s (rowOf c)) op = .done k') ∧
    (∀ (x : Entry) (n : Nat), n / 2 ^ 16 = x.s.toNat → bits n 6 10 = x.e.toNat → bit n 5 = x.k → bits n 0 5 = 0 →
      (x.e = 0x3FF → x.s.toInt ∈ [0, 1, -1]) → joinXp128 {} n = x) ∧
    (∀ (f : Fmt) (mode : Rounding) (sat : Bool) (r : Nat),
      let top := 2 ^ (f.width - 1)
      (∀ code m e, code < 2 ^ f.width → r < 2 ^ 24 → decodeElem f code = .fin m e → m ≠ 0 → encodeElem f mode sat r (.fin m e) = code) ∧
      (∀ e, r < 2 ^ 24 → encodeElem f mode sat r (.fin 0 e) = 0) ∧
      (∀ inf big nan, (f, inf, big, nan) ∈ [(Fmt.fp32, 0x7F80_0000, 0x7F7F_FFFF, 0x7FC0_0000), (.bf16, 0x7F80, 0x7F7F, 0x7FC0),
          (.fp16, 0x7C00, 0x7BFF, 0x7E00), (.e5m2, 0x7C, 0x7B, 0x7E)] →
        (∀ neg, encodeElem f mode sat r (.inf neg) = (if neg then top else 0) + if sat then big else inf) ∧
        encodeElem f mode sat r .nan = nan) ∧
      (f = .e4m3 → (∀ neg, encodeElem f mode sat r (.inf neg) = if sat then (if neg then top else 0) + 0x7E else 0x7F) ∧
        encodeElem f mode sat r .nan = 0x7F) ∧
      (f = .int8 ∨ f = .int32 → (∀ neg, encodeElem f mode sat r (.inf neg) = if neg then top else top - 1) ∧
        encodeElem f mode sat r .nan = 0)) ∧
    (execute k (noFillComes s (rowOf c)) op = .wait → exec (.tensorQueueEntry ⟨c, {}⟩) s = .next s) ∧
    (∀ code, execute k (noFillComes s (rowOf c)) op = .fault code →
      exec (.tensorQueueEntry ⟨c, {}⟩) s = .next (s.setCore c (k.fault code pc 0)))

/-- R85: after a tensor instruction, entry (i, j) of its tile has joined the K products of activation row i and weight column j in ascending
reduction index, and the entries of every other tile are as they were. -/
def Obligations.TensorProducts : Prop :=
  ∀ (k : Core) (fa fw : Fmt) (d n ga rs slot w i j : Nat), i < 16 → j < 16 →
    (k.multiply fa fw d n ga rs slot w).entry d i j =
      (List.range n).foldl (fun x e => joinProduct x
        ((rowElem fa (readBytes k.scratch (ga + i * rs) (fa.rowBytes n)) e).mul
          (rowElem fw (readBytes (k.slot slot).data (w + j * fw.rowBytes n) (fw.rowBytes n)) e)))
        (k.entry d i j) ∧
    ∀ d', d' ≠ d → (k.multiply fa fw d n ga rs slot w).entry d' i j = k.entry d' i j

/-- R61, R67: a cleared entry is S = 0, E = 0 and K = 0, an exact zero; no item that joins lowers E, and a nonzero one that joins an empty entry
takes over its window; K stays set until a clear or an instruction that overwrites the entry. -/
def Obligations.ClearAndKerf : Prop :=
  (∀ (k : Core) (d i j : Nat), i < 16 → j < 16 → (k.clearTile d).entry d i j = ({ s := 0, e := 0, k := false } : Entry)) ∧
  (({ s := 0, e := 0, k := false } : Entry).value = .fin 0 (-511)) ∧
  (∀ (x : Entry) (p : Machine.Num) (n : Nat),
      ((∀ m e, p = .fin m e → m ≠ 0 → floorLog m.natAbs e + 416 ≤ 0x3FE) →
        x.e.toNat ≤ (joinProduct x p).e.toNat ∧ (x.k = true → (joinProduct x p).k = true)) ∧
      x.e.toNat ≤ (joinXp128 x n).e.toNat ∧ (x.k = true → (joinXp128 x n).k = true)) ∧
  (∀ (m e : Int), m ≠ 0 → 0 ≤ floorLog m.natAbs e + 416 → floorLog m.natAbs e + 416 ≤ 0x3FE →
      ((joinProduct {} (.fin m e)).e.toNat : Int) = floorLog m.natAbs e + 416) ∧
  (∀ (n : Nat) (y : Entry), xp128 n = (y, true) → y.e ≠ 0x3FF → y.s ≠ 0 → joinXp128 {} n = y) ∧
  (∀ (k k' : Core) (w : Bool) (op : TensorOp) (d i j : Nat), i < 16 → j < 16 → execute k w op = .done k' →
      (k.entry d i j).k = true → (k'.entry d i j).k = true ∨ op = .tclr d ∨ (∃ ga gb imm, op = .tmma true d ga gb imm) ∨
        (∃ e ga gb imm m, op = .drain e ga gb imm m ∧ m.getLsbD 3 = true ∧
          (d = e ∨ (mxCode (bits imm.toNat 0 4) = true ∧ d = e + 1))) ∨
        ∃ ga imm m, op = .exportTile d ga imm m ∧ m.getLsbD 3 = true)

/-- R68: two accumulations of the same items, in any order, that both end with K clear hold identical S, E and K. An item is an exact product
whose place the window has, or the number of an XP128 value. -/
def Obligations.AccumulationOrderFree : Prop :=
  ∀ xs ys : List (Machine.Num ⊕ Nat),
    let join (x : Entry) : Machine.Num ⊕ Nat → Entry
      | .inl p => joinProduct x p
      | .inr n => joinXp128 x n
    xs.Perm ys →
    (∀ m e, Sum.inl (Machine.Num.fin m e) ∈ xs → m ≠ 0 → -416 ≤ floorLog m.natAbs e ∧ floorLog m.natAbs e + 416 ≤ 0x3FE) →
    (xs.foldl join {}).k = false → (ys.foldl join {}).k = false → xs.foldl join {} = ys.foldl join {}

/-- R89, R96, R105, R138, R142: the waits, once what they wait for has come about; until then the core does not go on. A SWAIT waits for a FULL
slot, and while an SREL of the slot is still in the tensor queue it waits though the slot is FULL. Where it rests on a choice
of the model's, entry 81 of the log says so. -/
def Obligations.Waits : Prop :=
  ∀ (c : Fin 8192) (f : Fields) (s : State),
    let k := s.core c
    let slot := k.slot (k.namedSlot f)
    let a := (k.getG f.a + f.imm).toNat
    let v : Word := BitVec.ofNat 32 (readNum k.scratch a 4)
    let holds : Prop := match bits f.m.toNat 0 2 with
      | 0 => v = k.getG f.b
      | 1 => v ≠ k.getG f.b
      | _ => (k.getG f.b).toNat ≤ v.toNat
    (Issues s c .swait f → noFillComes s (rowOf c) = false →
      (slot.fill = .full → (∀ e ∈ k.tq, e.op ≠ .srel (k.namedSlot f)) →
        Gives (.swait ⟨c, {}⟩ f) s c (k.setG f.d (slot.tag.setWidth 32)).next) ∧
      (slot.fill = .full → (∃ e ∈ k.tq, e.op = .srel (k.namedSlot f)) → exec (.swait ⟨c, {}⟩ f) s = .next s) ∧
      (slot.fill ≠ .full → exec (.swait ⟨c, {}⟩ f) s = .next s)) ∧
    (Issues s c .waitf f → k.Accessible a 4 4 →
      (holds → Gives (.waitf ⟨c, {}⟩ f) s c k.next) ∧ (¬holds → exec (.waitf ⟨c, {}⟩ f) s = .next s)) ∧
    (Issues s c .tsync f →
      (k.tq.length ≤ bits f.imm.toNat 0 3 → Gives (.tsync ⟨c, {}⟩ f) s c k.next) ∧
      (bits f.imm.toNat 0 3 < k.tq.length → exec (.tsync ⟨c, {}⟩ f) s = .next s)) ∧
    (Issues s c .mwait f →
      (k.xfers.length ≤ bits f.imm.toNat 0 4 → Gives (.mwait ⟨c, {}⟩ f) s c k.next) ∧
      (bits f.imm.toNat 0 4 < k.xfers.length → exec (.mwait ⟨c, {}⟩ f) s = .next s))

/-- R86, R100, R102, R103, R108, R118: NOP has no effect, MFS reads a special register, and of a slot's the state that a fill which has begun by now
gives it, TRAP faults with its code, BARB, BARD and HALT stop issue in the state that they name, after which the barriers of the bay are settled.
Where it rests on a choice of the model's, entries 83, 117, 130, 149 and 150 of the log say so. -/
def Obligations.SystemAndBarriers : Prop :=
  ∀ (c : Fin 8192) (f : Fields) (s : State),
    let k := s.core c
    let stops (i : Instr) (r : Run) : Prop :=
      ∃ t, s.Becomes c { k with run := r } t ∧ exec i s = .next (settle t (bayOf c))
    (Issues s c .nop f → Gives (.nop ⟨c, {}⟩ f) s c k.next) ∧
    (Issues s c .mfs f → bits f.imm.toNat 0 8 ∉ [0x0C, 0x10, 0x11] → Gives (.mfs ⟨c, {}⟩ f) s c (k.setG f.d (special s c (bits f.imm.toNat 0 8))).next) ∧
    (Issues s c .mfs f → bits f.imm.toNat 0 8 = 0x0C → Gives (.mfs ⟨c, {}⟩ f) s c
      (({ k with cycHi := (k.cycles >>> 32).setWidth 32 }).setG f.d (k.cycles.setWidth 32)).next) ∧
    (Issues s c .mfs f → ∀ n, n < 2 → bits f.imm.toNat 0 8 = 0x10 + n →
      let u := beginFill s (rowOf c)
      (∃ t, exec (.mfs ⟨c, {}⟩ f) s = .next t ∧ u.Becomes c ((u.core c).setG f.d ((u.core c).slot n).register).next t) ∧
      ((u.core c).slot n = k.slot n ∨ ((k.slot n).fill = .empty ∧ ((u.core c).slot n).fill = .filling))) ∧
    (Issues s c .trap f → Faults (.trap ⟨c, {}⟩ f) s c 0x0A (f.imm.setWidth 16)) ∧
    (Issues s c .barb f → stops (.barb ⟨c, {}⟩ f) (.atBarb (f.imm.setWidth 8))) ∧
    (Issues s c .bard f → stops (.bard ⟨c, {}⟩ f) (.atBard (f.imm.setWidth 8))) ∧
    (Issues s c .halt f → stops (.halt ⟨c, {}⟩ f) .halted)

/-- R90, R139, R143, R144, R206, R236: MOVD starts a transfer, TCOLL posts its 64-byte request, LSEND sends a slice descriptor, or faults with
DATA_ERROR where a word of the slice cannot be corrected; each stalls where the core or its bay holds all that it may. Where it rests on a choice
of the model's, entries 82 and 124 of the log say so. -/
def Obligations.MoverAndHooks : Prop :=
  ∀ (c : Fin 8192) (f : Fields) (s : State),
    let k := s.core c
    let y := s.bay (bayOf c)
    let ga := (k.getG f.a).toNat
    let n := 16 * bits f.imm.toNat 0 13
    let len := n * (if f.m.getLsbD 0 then 4 else 2)
    (Issues s c .movd f →
      (8 ≤ k.xfers.length → exec (.movd ⟨c, {}⟩ f) s = .next s) ∧
      (k.xfers.length < 8 → k.Accessible ga 32 16 → descriptorFault (readBytes k.scratch ga 32) = none →
        Gives (.movd ⟨c, {}⟩ f) s c
          ({ k with xfers := k.xfers ++ [transferOf k.nextXfer (readBytes k.scratch ga 32)], nextXfer := k.nextXfer + 1 }).next)) ∧
    (Issues s c .tcoll f →
      (4 ≤ y.posts.length → exec (.tcoll ⟨c, {}⟩ f) s = .next s) ∧
      (y.posts.length < 4 → k.Accessible ga 64 16 → s.partOf (bayOf c) = none → ∃ t, s.Becomes c k.next t ∧
        exec (.tcoll ⟨c, {}⟩ f) s = .next (t.setBay (bayOf c) { y with posts := y.posts ++ [(c.val, readBytes k.scratch ga 64)] })) ∧
      (∀ p, y.posts.length < 4 → k.Accessible ga 64 16 → s.partOf (bayOf c) = some p → ∃ t, s.Becomes c k.next t ∧
        exec (.tcoll ⟨c, {}⟩ f) s = .next ((t.setBay (bayOf c)
          { y with posts := y.posts ++ [(c.val, readBytes k.scratch ga 64)] }).count Obj.trussPosted (p + 1) 64))) ∧
    (Issues s c .lsend f →
      (8 ≤ k.xfers.length → exec (.lsend ⟨c, {}⟩ f) s = .next s) ∧
      (k.xfers.length < 8 → ga + len ≤ 0x1_8000 → (k.getG f.b).toNat + n ≤ 262144 → (f.m.getLsbD 0 = true → n ≤ 1536 * 16) →
        ga % 16 = 0 → (∃ w ∈ k.badWords, ga < 16 * w + 16 ∧ 16 * w < ga + len) → Faults (.lsend ⟨c, {}⟩ f) s c 0x09 0) ∧
      (k.xfers.length < 8 → k.Accessible ga len 16 → (k.getG f.b).toNat + n ≤ 262144 → (f.m.getLsbD 0 = true → n ≤ 1536 * 16) →
        ∃ t, s.Becomes c ({ k with
            xfers := k.xfers ++ [({ id := k.nextXfer, send := true, src := 0, dst := 0, len, compOff := 0, compVal := 0, fence := false } : Xfer)]
            nextXfer := k.nextXfer + 1 }).next t ∧
          let d : SliceDesc := SliceDesc.mk c k.nextXfer y.part.toNat (bits (k.getG f.d).toNat 0 12) ga (k.getG f.b).toNat n
            (f.m.getLsbD 0) (f.m.getLsbD 1)
          exec (.lsend ⟨c, {}⟩ f) s = .next (sendSlices (t.setBay (bayOf c) { y with slices := y.slices ++ [d] }) (bayOf c))))

/-- R93, R101, R107, R108, R121, R122, R123: a pending transfer error, a fetch past the end of the program, a word that cannot be corrected and
one that is no instruction fault before any instruction takes effect, and a transfer or send that ends with an error status leaves the error
pending; a branch out of the innermost loop's body, a control instruction at the end of a body, a LOOP whose end lies at or below its PC or beyond
the enclosing loop's end, and a BRK without a loop fault with LOOP_STRUCTURE, and a fifth nested LOOP with LOOP_DEPTH. Nothing else changes. What the error codes find while an instruction issues stands before it does: the
words that cannot be corrected stay so until they are written whole, and each corrected error is recorded, of a core's memories by its site and of
its bay's buffer by the bay. Where it rests on a choice of the model's, entries 6 (a fetch at or past the program's length), 13, 81 (a LOOP of count
0 at depth 4 faults too), 118 and 151 (the first of two errors of transfers gives the status) of the log say so. -/
def Obligations.InstructionFaults : Prop :=
  (∀ (o : Op) (c : Fin 8192) (f : Fields) (s : State), (s.core c).run = .running →
      let k := s.core c
      let r := s.row (rowOf c)
      (∀ st, k.xferErr = some st → Faults (o.instr c f) s c 0x0B (st.setWidth 16)) ∧
      (k.xferErr = none → r.progLen ≤ k.pc → Faults (o.instr c f) s c 0x04 0) ∧
      (k.xferErr = none → k.pc < r.progLen → k.pc ∈ k.badImem → Faults (o.instr c f) s c 0x09 0) ∧
      (k.xferErr = none → k.pc < r.progLen → k.pc ∉ k.badImem → decodeWord (look 0 r.imem k.pc) = none →
        Faults (o.instr c f) s c 0x01 0)) ∧
  (∀ (s : State) (c : Nat) (x : Xfer) (st : Byte), (s.core c).run = .running → s.workers (bayOf c) ≠ [] → c ∈ s.workers (bayOf c) → st ≠ 0x00 →
      ((endTransfer s c x st).core c).xferErr = some ((s.core c).xferErr.getD st)) ∧
  (∀ (c : Fin 8192) (f : Fields) (s : State),
      let k := s.core c
      let ends : Prop := ∃ l ∈ k.loops, l.stop = k.pc
      let outside (t : Nat) : Prop := ∃ l ∈ k.loops.head?, t < l.start ∨ l.stop < t
      (Issues s c .br f → (ends ∨ outside (bits f.imm.toNat 0 11)) → Faults (.br ⟨c, {}⟩ f) s c 0x06 0) ∧
      (Issues s c .bri f → (ends ∨ outside (bits (k.getG f.a).toNat 0 11)) → Faults (.bri ⟨c, {}⟩ f) s c 0x06 0) ∧
      (Issues s c .loop f → 4 ≤ k.loops.length → Faults (.loop ⟨c, {}⟩ f) s c 0x05 0) ∧
      (Issues s c .loop f → k.loops.length < 4 →
        (ends ∨ bits f.imm.toNat 0 11 ≤ k.pc ∨ ∃ l ∈ k.loops.head?, l.stop < bits f.imm.toNat 0 11) →
        Faults (.loop ⟨c, {}⟩ f) s c 0x06 0) ∧
      (Issues s c .brk f → (k.loops = [] ∨ ends) → Faults (.brk ⟨c, {}⟩ f) s c 0x06 0)) ∧
  (∀ (c : Fin 8192) (e : Sram) (s : State),
      let k := s.core c
      let t := (s.strike c e).core c
      (∀ o f, exec (Op.instr o c f e) s = exec (Op.instr o c f) (s.strike c e)) ∧
      exec (.tensorQueueEntry ⟨c, e⟩) s = exec (.tensorQueueEntry ⟨c, {}⟩) (s.strike c e) ∧
      (∀ id, exec (.transferComplete ⟨c, e⟩ id) s = exec (.transferComplete ⟨c, {}⟩ id) (s.strike c e)) ∧
      (∀ w, (w ∈ t.badWords ↔ w ∈ e.scratch ∨ w ∈ k.badWords) ∧ (w ∈ t.badImem ↔ w ∈ e.imem ∨ w ∈ k.badImem) ∧
        (w ∈ t.badTables ↔ w ∈ e.tables ∨ w ∈ k.badTables) ∧
        (w ∈ t.slot0.badWords ↔ (0, w) ∈ e.slots ∨ w ∈ k.slot0.badWords) ∧ (w ∈ t.slot1.badWords ↔ (1, w) ∈ e.slots ∨ w ∈ k.slot1.badWords)) ∧
      t = { k with
        badWords := t.badWords, badImem := t.badImem, badTables := t.badTables
        slot0 := { k.slot0 with badWords := t.slot0.badWords }, slot1 := { k.slot1 with badWords := t.slot1.badWords } } ∧
      (∀ c' : Nat, c' ≠ c → (s.strike c e).core c' = s.core c') ∧
      (∀ array row, s.strike c { corrected := [(array, row)] } =
        (s.setCore c (s.core c)).record 0x0020 [s.siteOf c, array, row]) ∧
      (∀ bank row, s.strike c { buffer := [(bank, row)] } =
        (s.setCore c (s.core c)).record 0x0020 [c.val / 128, bank, row]))

/-- R100, R133, R139: the guard of a word is a predicate and a negate bit; an instruction whose guard is false takes its cycle, and has no effect
and no fault, but that what is illegal faults whatever the guard: a word that is no instruction, a TMMA or TMMAC whose gb has a nonzero reserved
bit, and a MOVD whose descriptor has a nonzero reserved field or a completion value of 0xFFFF_0000 or above. Where it rests on a choice of the
model's, entries 119 and 121 of the log say so. -/
def Obligations.GuardFalse : Prop :=
  (∀ (w : Dword) (o : Op) (f : Fields), decodeWord w = some (o, f) → f.pn = w.getLsbD 55 ∧ f.pr = w.extractLsb' 52 3) ∧
  ∀ (o : Op) (c : Fin 8192) (f : Fields) (s : State), (s.core c).run = .running →
    let k := s.core c
    let r := s.row (rowOf c)
    let d := readBytes k.scratch (k.getG f.a).toNat 32
    let illegal : Prop := ((o = .tmma ∨ o = .tmmac) ∧ bits (k.getG f.b).toNat 14 18 ≠ 0) ∨
      (o = .movd ∧ k.Accessible (k.getG f.a).toNat 32 16 ∧ (bits (field d 0 8) 48 15 ≠ 0 ∨ bits (field d 8 8) 48 15 ≠ 0 ∨
        0xFFFF_0000 ≤ field d 0x18 4 ∨ field d 0x1C 2 / 2 ≠ 0 ∨ field d 0x1E 2 ≠ 0))
    (fetch s c = .inr (o, f) → k.getP f.pr.toNat = f.pn → (illegal → Faults (o.instr c f) s c 0x01 0) ∧
      (¬illegal → exec (o.instr c f) s = .next (charge s c k.next 1))) ∧
    (k.xferErr = none → k.pc < r.progLen → k.pc ∉ k.badImem → decodeWord (look 0 r.imem k.pc) = none →
      Faults (o.instr c f) s c 0x01 0)

/-- R120: what a core instruction that answers a next state leaves as it was, whether it completes, stalls or faults: all of the module beyond its
core; every g register, predicate or v register but its destination; and the accumulators, the scratchpad, the slots, the kerf status and the
queues, but for what the instruction's entry names. An MFS of an infeed slot's register may find that a fill has begun: of the 16 cores of the row
an EMPTY slot may then be FILLING, and nothing else beyond the core changes. Where it rests on a choice of the model's, entry 130 of the log says so. -/
def Obligations.CoreInstructionFrames : Prop :=
  ∀ (o : Op) (c : Fin 8192) (f : Fields) (s t : State), exec (o.instr c f) s = .next t →
    let k := s.core c
    let rest (k' : Core) : Prop := k'.acc = k.acc ∧ k'.slot0 = k.slot0 ∧ k'.slot1 = k.slot1 ∧ k'.kerf = k.kerf ∧
      k'.arg0 = k.arg0 ∧ k'.arg1 = k.arg1
    let still (k' : Core) : Prop := rest k' ∧ k'.scratch = k.scratch ∧ k'.badWords = k.badWords ∧ k'.tq = k.tq ∧
      k'.xfers = k.xfers ∧ (k'.cycHi = k.cycHi ∨ o = .mfs)
    let only (P : Core → Prop) : Prop := t = s ∨ ∃ (k' : Core) (n : Nat), t = ({ s.setCore c k' with free := n } : State) ∧ P k'
    (o ∈ [Op.add, .sub, .and, .or, .xor, .shl, .shr, .sar, .mul, .mulh, .li, .sel, .min, .max, .ldw, .ldh, .ldb, .vcmp, .vext,
        .swait, .mfs] → (o = .mfs → bits f.imm.toNat 0 8 ∉ [0x10, 0x11]) →
      only fun k' => still k' ∧ k'.p = k.p ∧ k'.v = k.v ∧ ∀ r, r ≠ f.d → k'.getG r = k.getG r) ∧
    (o = .mfs → bits f.imm.toNat 0 8 ∈ [0x10, 0x11] → ({ t with cores := s.cores, free := s.free } : State) = s ∧
      (∀ i : Nat, i ≠ c → t.core i = { s.core i with slot0 := (t.core i).slot0, slot1 := (t.core i).slot1 }) ∧
      (∀ i n : Nat, (t.core i).slot n = (s.core i).slot n ∨
        (i ∈ coresOfRow (rowOf c) ∧ ((s.core i).slot n).fill = .empty ∧ ((t.core i).slot n).fill = .filling)) ∧
      (let k' := t.core c
       k'.acc = k.acc ∧ k'.kerf = k.kerf ∧ k'.arg0 = k.arg0 ∧ k'.arg1 = k.arg1 ∧ k'.scratch = k.scratch ∧ k'.badWords = k.badWords ∧
         k'.tq = k.tq ∧ k'.xfers = k.xfers ∧ k'.cycHi = k.cycHi ∧ k'.p = k.p ∧ k'.v = k.v ∧ ∀ r, r ≠ f.d → k'.getG r = k.getG r)) ∧
    (o ∈ [Op.setp, .plog] →
      only fun k' => still k' ∧ k'.g = k.g ∧ k'.v = k.v ∧ ∀ r, r ≠ f.d.toNat → k'.getP r = k.getP r) ∧
    (o ∈ [Op.vadd, .vsub, .vmul, .vfma, .vmin, .vmax, .vand, .vor, .vxor, .vshl, .vshr, .vsel, .vcvt, .vred, .vperm, .vld, .vldx,
        .vins, .vbcst, .vnl, .vflr, .vfrac, .vldexp] →
      only fun k' => still k' ∧ k'.g = k.g ∧ k'.p = k.p ∧ ∀ r i, r ≠ f.d → i < 32 → k'.lane r i = k.lane r i) ∧
    (o ∈ [Op.br, .bri, .loop, .brk, .waitf, .tsync, .mwait, .nop, .trap] →
      only fun k' => still k' ∧ k'.g = k.g ∧ k'.p = k.p ∧ k'.v = k.v) ∧
    (o ∈ [Op.stw, .sth, .stb, .vst, .vstx] →
      only fun k' => rest k' ∧ k'.g = k.g ∧ k'.p = k.p ∧ k'.v = k.v ∧ k'.tq = k.tq ∧ k'.xfers = k.xfers) ∧
    (o ∈ [Op.tmma, .tmmac, .tclr, .tjoin, .drain, .exportTile, .srel, .movd] →
      only fun k' => rest k' ∧ k'.g = k.g ∧ k'.p = k.p ∧ k'.v = k.v ∧ k'.scratch = k.scratch ∧ k'.badWords = k.badWords)

/-- R106, R107: the decoder reads back every word that the encoder writes for legal fields, and the words that decode are those that the encoder
writes. -/
def Obligations.InstructionWords : Prop :=
  (∀ (o : Op) (f : Fields), fieldsOk o f = true → decodeWord (encodeWord o f) = some (o, f)) ∧
  (∀ (w : Dword) (o : Op) (f : Fields), decodeWord w = some (o, f) → encodeWord o f = w ∧ fieldsOk o f = true)

/-! ## Sequencers and steps -/

/-- R102, R103: the bay barrier and the die barrier, of a state's cores as they stand: while a core of the bay's rows in use has neither halted nor
arrived, nothing happens; once all have, cores that wait at different barriers or with different ids fault with BARRIER_MISMATCH, one id at BARB releases
them, and one id at BARD has the bay give the root its token, which nothing else does. While a bay of the partition owes its token, the root waits; with
all in, its release names every bay that gave one, and faults the waiting cores where the ids differ. A release resumes every core of the bay that
waits, or faults it. Where it rests on a choice of the model's, entries 83, 149 (which cores fault where the ids differ) and 150 (a bay whose cores have
all halted owes no token) of the log say so. -/
def Obligations.DieBarriers : Prop :=
  ∀ (b : Fin 64) (p : Nat) (id : Byte) (xs : List (Bool × Byte)) (s : State),
    let ws := s.workers b
    let waits (c : Nat) : Prop := (s.core c).barrier.isSome = true
    let here (c : Nat) : Prop := (s.core c).halted = true ∨ waits c
    (s.arrived b = some ((true, id) :: xs) → (∀ x ∈ xs, x = (true, id)) → s.partOf b = some p → (s.bay b).token = none →
      (s.bay b).release = none →
      exec (.dieBarrierToken b) s = .next (settleRoot (s.setBay b { s.bay b with token := some id }) p)) ∧
    ((∀ c ∈ ws, here c) → s.arrived b = some (ws.filterMap fun c => (s.core c).barrier)) ∧
    ((¬∃ i, (∃ c ∈ ws, (s.core c).barrier = some (true, i)) ∧
        ∀ c ∈ ws, (s.core c).halted = true ∨ (s.core c).barrier = some (true, i)) → exec (.dieBarrierToken b) s = .next s) ∧
    ((s.bay b).release = some true →
      exec (.dieBarrierRelease b) s = .next ((s.setBay b { s.bay b with release := none }).onWaiting b Core.resume)) ∧
    ((s.bay b).release = some false →
      exec (.dieBarrierRelease b) s = .next ((s.setBay b { s.bay b with release := none }).onWaiting b Core.mismatch)) ∧
    ((s.bay b).release = none → exec (.dieBarrierRelease b) s = .next s) ∧
    ((s.partOf b = some p → settle s b = settleRoot (settleBay s b) p) ∧ (s.partOf b = none → settle s b = settleBay s b)) ∧
    ((∃ c ∈ ws, ¬here c) → settleBay s b = s) ∧
    ((∀ c ∈ ws, here c) →
      ((∃ c ∈ ws, ∃ d ∈ ws, waits c ∧ waits d ∧ (s.core c).barrier ≠ (s.core d).barrier) → settleBay s b = s.onWaiting b Core.mismatch) ∧
      ((∀ c ∈ ws, waits c → (s.core c).barrier = some (false, id)) → settleBay s b = s.onWaiting b Core.resume) ∧
      ((∀ c ∈ ws, waits c → (s.core c).barrier = some (true, id)) → settleBay s b = s)) ∧
    (∀ f : Core → Core, let t := s.onWaiting b f
      (∃ m, t = { s with cores := m }) ∧ (∀ c ∈ ws, waits c → t.core c = f (s.core c)) ∧
      ∀ c, (c ∉ ws ∨ ¬waits c) → t.core c = s.core c) ∧
    (∀ k : Core, k.resume = { k.next with run := .running } ∧ k.mismatch.run = .faulted 0x07 ∧ k.mismatch.faultPc = k.pc) ∧
    (let bs := s.baysOf p
     let owes (y : Nat) : Prop := (s.bay y).token = none ∧ ∃ c ∈ s.workers y, (s.core c).halted = false
     (((∃ y ∈ bs, owes y) ∨ ∀ y ∈ bs, (s.bay y).token = none) → settleRoot s p = s) ∧
      ((∃ y ∈ bs, (s.bay y).token ≠ none) → (∀ y ∈ bs, ¬owes y) → let t := settleRoot s p
        (∃ m, t = { s with bays := m }) ∧ (∀ y, (y ∉ bs ∨ (s.bay y).token = none) → t.bay y = s.bay y) ∧
        (∀ y ∈ bs, (s.bay y).token ≠ none →
          ((∀ z ∈ bs, (s.bay z).token ≠ none → (s.bay z).token = (s.bay y).token) →
            t.bay y = { s.bay y with token := none, release := some true }) ∧
          ((∃ z ∈ bs, (s.bay z).token ≠ none ∧ (s.bay z).token ≠ (s.bay y).token) →
            t.bay y = { s.bay y with token := none, release := some false }))))

/-- R122, R139, R140, R141: a transfer starts with the status that its address check finds; one that ends moves its bytes, writes its completion
value and is outstanding no longer; one whose check failed ends with that status and no other effect, and one that failed on its way leaves its
destination undefined; where source and destination overlap, each byte ends with one of two values. The completion word holds the completion value
on success and 0xFFFF_0000 + status otherwise, and a running core has the error pending. Where it rests on a choice of the model's, entries 2, 123
(either value of an overlap) and 151 (the first of two errors stays pending) of the log say so. -/
def Obligations.Transfers : Prop :=
  (∀ (c : Fin 8192) (id p : Nat) (x : Xfer) (s : State), (s.core c).xfer id = some x → s.partOf (bayOf c) = some p →
      x.send = false →
      (x.started = false → (x.fence = true → ∀ y ∈ (s.core c).xfers, y.send = false → x.id ≤ y.id) →
        exec (.transferStart c id) s =
          .next (s.setCore c ((s.core c).setXfer { x with started := true, status := startStatus s p x }))) ∧
      (∀ a b u v v' w bs ds, x.started = true → x.status = 0x00 → moverPlace s x.src = some (.here a) →
        moverPlace s x.dst = some (.here b) → hitTransfer s c p x = some u → readRange 2 u p a x.len = (v, 0x00, bs) →
        overlapBytes v a b bs = (ds, v') → writeRange v' p b ds = (w, 0x00) →
        exec (.transferComplete ⟨c, {}⟩ id) s = .next (endTransfer w c x 0x00)) ∧
      (∀ m a b u w, x.started = true → x.status = 0x00 → moverPlace s x.src = some (.module m a) → moverPlace s x.dst = some (.here b) →
        hitTransfer s c p x = some u → x.len ≤ x.arrived → writeRange u p b x.data = (w, 0x00) →
        exec (.transferComplete ⟨c, {}⟩ id) s = .next (endTransfer w c x 0x00)) ∧
      (∀ m b, x.started = true → x.status = 0x00 → moverPlace s x.dst = some (.module m b) →
        (x.len ≤ x.warrived → exec (.transferComplete ⟨c, {}⟩ id) s = .next (endTransfer s c x 0x00)) ∧
        (x.warrived < x.len → exec (.transferComplete ⟨c, {}⟩ id) s = .next s)) ∧
      (x.started = true → x.status ≠ 0x00 → x.next = 0 → x.wnext = 0 →
        exec (.transferComplete ⟨c, {}⟩ id) s = .next (endTransfer s c x x.status)) ∧
      (∀ b, x.started = true → x.status ≠ 0x00 → (x.next ≠ 0 ∨ x.wnext ≠ 0) → moverPlace s x.dst = some (.here b) →
        exec (.transferComplete ⟨c, {}⟩ id) s = .next (endTransfer (scramble s p b x.len) c x x.status))) ∧
  (∀ (s : State) (a b : Nat) (bs : Bytes),
      let n := bs.length
      let ds := (overlapBytes s a b bs).1
      ds.length = n ∧ ((a = b ∨ a + n ≤ b ∨ b + n ≤ a) → ds = bs) ∧
      ∀ i < n, ds.getD i 0 = bs.getD i 0 ∨ (a ≤ b + i ∧ b + i < a + n ∧ ds.getD i 0 = bs.getD (b + i - a) 0) ∨
        (b ≤ a + i ∧ a + i < b + n ∧ ds.getD i 0 = bs.getD (a + i - b) 0)) ∧
  (∀ (s : State) (c : Nat) (x : Xfer) (st : Byte), (s.core c).run = .running → s.workers (bayOf c) ≠ [] → c ∈ s.workers (bayOf c) →
      x.compOff / 16 ∉ (s.core c).badWords →
      let t := endTransfer s c x st
      readBytes (t.core c).scratch x.compOff 4 = leBytes 4 (if st = 0x00 then x.compVal.toNat else 0xFFFF_0000 + st.toNat) ∧
      (t.core c).xfers = (s.core c).xfers.filter (·.id != x.id) ∧
      (st = 0x00 → (t.core c).xferErr = (s.core c).xferErr) ∧
      (st ≠ 0x00 → (t.core c).xferErr = some ((s.core c).xferErr.getD st)))

/-- R108, R115, R116, R117, R118, R411: what the sequencers and the firmware do with a running step: they load and start it, stop it on a fault,
end it once all of it has ended, a stopped one once no request of its movers is outstanding, and reset a partition that does not confirm a stop, whose open rows are cancelled. As the step's lists are loaded,
both slots of each core are EMPTY, and they are as the streamer has left them since when the core starts. A core that starts has every register, predicate and lane at
zero, every accumulator entry clear, an empty loop stack and tensor queue, PC 0, a zero cycle count and kerf status, and the step's arguments; its
scratchpad is as it was. Where it rests on a choice of the model's, entries 41, 79, 116, 142 and 152 of the log say so. -/
def Obligations.StepCourse : Prop :=
  (∀ (b : Fin 64) (p : Fin 8) (r : StepRun) (s : State),
      (∀ c code, c ∈ s.workers b → (s.core c).run = .faulted code → s.partOf b = some p.val →
        (s.serving = true → exec (.faultReport b) s = .next (stopStep s p [])) ∧
        (s.serving = false → exec (.faultReport b) s = .next (stopOthers (stopStep s p []) b))) ∧
      ((s.part p).step = some r →
        (s.serving = true → ((stopStep s p [0x10]).part p).step.map (·.phase) = some .stopping) ∧
        (s.serving = false → stopStep s p [0x10] =
          s.setPart p { s.part p with step := some { r with
            held := true, ends := joinEnds r.ends [0x10], dataErr := r.dataErr || s.spoiled p } })) ∧
      ((s.part p).step = some r → r.phase = .loading → (∀ b ∈ s.baysOf p, (s.bay b).loaded = true) →
        exec (.startToken p) s = .next (let t := (s.workersOf p).foldl (fun s c => s.setCore c ((s.core c).begin r.arg0 r.arg1)) s
          t.setPart p { t.part p with step := some { r with phase := .running, started := true } })) ∧
      (let due : Prop := ∃ q ∈ s.net.requests, q.part = p.val ∧ ∃ c id, q.who = .xfer c id
       ((s.part p).step = some r → r.phase = .stopping → due → exec (.stepComplete p) s = .next s) ∧
       ((s.part p).step = some r → (r.phase = .running ∧ s.ran p = true) ∨ (r.phase = .stopping ∧ ¬due) → s.collective p = false →
        s.rowsDue p = false →
        (closeWaits s p = true → exec (.stepComplete p) s = .next s) ∧
        (closeWaits s p = false → exec (.stepComplete p) s = .next (let x := closedStep s p r; endStep x.1 p x.2)))) ∧
      ((s.part p).step = some r → r.phase = .stopping → s.serving = true → exec (.stopConfirmationTimeout p) s = .next (
        let t := recordFault (settleCtxs (cancelRows s p) r) p r
        let u := makeDone (t.setPstate p psResetting) r.queue r.seq (stepCpl t p r)
        startReset (u.setPart p { u.part p with step := none }) p 2 (s.pstate p))) ∧
      (∀ e, exec (.stepLoad ⟨b, e⟩) s = exec (.stepLoad ⟨b, []⟩) (e.foldl (fun s x => s.strike (128 * b.val + x.1.val) x.2) s)) ∧
      (s.partOf b = some p.val → (s.part p).step = some r → r.phase = .loading → (s.bay b).loaded = false →
        let hdr := plainBytes s p r.image 64
        let img := plainBytes s p r.image (imageSize hdr)
        let resident := (s.bay b).resident == some (r.image, imageCrc hdr)
        let progs := (List.range 8).map (mapProgram img (8 * (s.bay b).py.toNat + bayX b))
        let secs := sectionsFor img resident progs
        (loadWaits s p r.image (headParts img ++ secs.map fun x => (x.off, x.size)) = true → exec (.stepLoad ⟨b, []⟩) s = .next s) ∧
        (loadWaits s p r.image (headParts img ++ secs.map fun x => (x.off, x.size)) = false →
          (∀ t st, readParts s p r.image (headParts img) = (t, st) → st ≠ 0x00 → exec (.stepLoad ⟨b, []⟩) s = .next (stopData t p)) ∧
          (∀ t u ok, readParts s p r.image (headParts img) = (t, 0x00) →
            loadSections (upTo 8 (fun i s => s.setRow (8 * b.val + i) { s.row (8 * b.val + i) with
              prog := progs.getD i 0xFF, idle := progs.getD i 0xFF == 0xFF }) t) p b r.image secs = (u, ok) →
            exec (.stepLoad ⟨b, []⟩) s = .next (
              if ok then u.setBay b { u.bay b with loaded := true, resident := some (r.image, imageCrc hdr) }
              else stopData (u.setBay b { u.bay b with resident := none }) p)))) ∧
      (∀ (img : Bytes) (progs : List Nat), ∀ x ∈ sectionsFor img true progs, x.type = 4 ∧ bit x.flags 0 = true)) ∧
  (∀ (img : Bytes) (image c : Nat) (b : Fin 64) (s : State), c ∈ coresOf b →
      ((loadLists img image s b).core c).slot0.fill = .empty ∧ ((loadLists img image s b).core c).slot1.fill = .empty) ∧
  (∀ (k : Core) (a b : Word),
      let t := k.begin a b
      t.run = .running ∧ (∀ r, t.getG r = 0) ∧ (∀ r, r ≠ 0 → t.getP r = false) ∧ (∀ r i, t.lane r i = 0) ∧
      (∀ d i j, t.entry d i j = { s := 0, e := 0, k := false }) ∧ t.loops = [] ∧ t.tq = [] ∧ t.xfers = [] ∧ t.pc = 0 ∧ t.cycles = 0 ∧ t.cycHi = 0 ∧
      t.kerf = false ∧ t.arg0 = a ∧ t.arg1 = b ∧ t.scratch = k.scratch ∧ t.slot0 = k.slot0 ∧ t.slot1 = k.slot1)

/-! ## Streams -/

/-- R37, R86, R95, R154, R156, R157, R161, R162, R163: a controller reads a stream's next flit, where the arbiter's round gives that stream a flit
and every destination has credit, and sends it to each; a bay's streamer stages the bytes that a pending fill names and frees the space of the
others; a fill whose bytes are staged and whose slot is released in all 16 cores is FILLING until it is written, and then FULL, and while bytes of it
are still to come its slot is EMPTY or FILLING, as is, once it has begun, the other slot, for the fill that follows; freed space returns to the
controller as credit; the list's next descriptors are fetched as memory then holds them. Where it rests on a choice of the model's, entries 44 (space
is freed by 64 bytes and returned in whole flits), 114, 122 (a slot's bytes outside the fill), 129, 130, 172 and 178 (flits of
several controllers arrive as they were sent) of the log say so. -/
def Obligations.Streams : Prop :=
  ∀ (n : Fin 24) (i : Fin 16) (b : Fin 64) (r : Fin 8) (s : State),
    (∀ (x : StreamCtx) a, x.readable s = some a ↔ x.failed = false ∧ (∀ d ∈ x.dests, 1 ≤ look 0 x.credit d) ∧
      resolve s x.part (x.src + 512 * x.next) = some (.mem a) ∧ retraining s a 512 = false) ∧
    (∀ x z a, look none (s.mc n).streams i = some x → x.readable s = some a →
      let rs := readableCtxs s (s.mc n)
      let m := (s.mc n).newRound x.part rs
      ((∀ e ∈ rs, e.2.part ∈ (s.mc n).round) → m.round = []) ∧
      ((∃ e ∈ rs, e.2.part ∉ (s.mc n).round) → m.round = (s.mc n).round) ∧
      (look none m.streams i = some z →
        ((x.part ∈ m.round ∨ z.weight ≤ z.served) → exec (.streamRead n i) s = .next s) ∧
        (x.part ∉ m.round → z.served < z.weight → onFailedChannel s a 512 = false →
          (∀ w ∈ s.bad, ¬(a / 64 ≤ w ∧ 64 * w < a + 512)) → exec (.streamRead n i) s = .next (
            let y : StreamCtx := { z with
              next := z.next + 1, served := z.served + 1, credit := z.dests.foldl (fun c d => put 0 c d (look 0 c d - 1)) z.credit }
            z.dests.foldl (fun s d => s.setBay d { s.bay d with
                inflight := (s.bay d).inflight ++ [{ stream := z.stream, index := z.next, bytes := readBytes s.mem a 512, ctl := n }] })
              (s.setMc n { m with
                round := m.round ++ [x.part]
                streams := put none m.streams i (if z.next + 1 < z.len then some y else none) }))))) ∧
    (∀ f, s.nextFlit b (s.bay b).inflight [] = some f → exec (.streamFlit b) s = .next (
      let kept := s.wanted b f.stream f.index
      beginFills (s.setBay b { s.bay b with
        inflight := (s.bay b).inflight.erase f
        stages := (s.bay b).stages.map fun g =>
          if g.stream ≠ f.stream then g
          else { g with
            flits := if kept = [] then g.flits else g.flits ++ [{ f with kept }], unreturned := g.unreturned + (8 - kept.length) } }) b)) ∧
    (∀ f rest g bs, let y := s.row (8 * b.val + r.val)
      let slot (k : Core) : Slot := if y.nextSlot = 0 then k.slot0 else k.slot1
      let tag := f.tag + BitVec.ofNat 16 y.rep
      y.fills = f :: rest → y.fetched ≠ 0 → (∀ c ∈ coresOfRow (8 * b.val + r.val), (slot (s.core c)).fill ≠ .full) →
      (s.bay b).stages.find? (·.stream == f.stream) = some g → g.read (f.start y.rep) f.len = some bs →
      ((∀ c ∈ coresOfRow (8 * b.val + r.val), (slot (s.core c)).fill = .empty) →
        ∀ c ∈ coresOfRow (8 * b.val + r.val), let t := beginFill s (8 * b.val + r.val)
          (slot (t.core c)).fill = .filling ∧ (slot (t.core c)).tag = tag) ∧
      exec (.fillWrite b r) s = .next (
        let t := (coresOfRow (8 * b.val + r.val)).foldl (fun s c =>
          let x := (slot (s.core c)).write tag f.slotOff bs
          s.setCore c (if y.nextSlot = 0 then { s.core c with slot0 := x } else { s.core c with slot1 := x })) s
        beginFill (freeStages (t.setRow (8 * b.val + r.val) { y with
          fills := if f.count ≤ y.rep + 1 then rest else y.fills, rep := if f.count ≤ y.rep + 1 then 0 else y.rep + 1
          nextSlot := 1 - y.nextSlot }) b) (8 * b.val + r.val))) ∧
    (∀ f rest, let y := s.row (8 * b.val + r.val)
      y.fills = f :: rest → y.fetched ≠ 0 → ∀ c ∈ coresOfRow (8 * b.val + r.val),
        let k := s.core c
        let k' := (beginFill s (8 * b.val + r.val)).core c
        let begun (n : Nat) (tag : Half) : Prop :=
          k'.slot n = k.slot n ∨ ((k.slot n).fill = .empty ∧ k'.slot n = { k.slot n with fill := .filling, tag })
        begun y.nextSlot (f.tag + BitVec.ofNat 16 y.rep) ∧
        (∀ j g, y.following = some (j, g) → begun (1 - y.nextSlot) (g.tag + BitVec.ofNat 16 j)) ∧
        ((y.following = none ∨ ∃ c' ∈ coresOfRow (8 * b.val + r.val),
            (((beginFill s (8 * b.val + r.val)).core c').slot y.nextSlot).fill ≠ .filling) →
          k'.slot (1 - y.nextSlot) = k.slot (1 - y.nextSlot))) ∧
    (∀ stream g, (s.bay b).stages.find? (·.stream == stream) = some g → ∃ t, exec (.stageCreditReturn b stream) s = .next t ∧
      t.bay b = { s.bay b with
        stages := (s.bay b).stages.map fun h => if h.stream = stream then { h with unreturned := g.unreturned % 8 } else h } ∧
      ∀ j x, (j, some x) ∈ (s.mc g.ctl).streams → x.stream = stream → x.part = (s.bay b).part.toNat → b.val ∈ x.dests →
        (j, some { x with credit := put 0 x.credit b (look 0 x.credit b + g.unreturned / 8) }) ∈ (t.mc g.ctl).streams) ∧
    (∀ p t bs, s.partOf b = some p → (s.row (8 * b.val + r.val)).descLeft ≠ 0 → (s.row (8 * b.val + r.val)).fetched ≤ 16 →
      let y := s.row (8 * b.val + r.val)
      let k := min 32 y.descLeft
      rangeWaits s p y.descAddr (16 * k) = false → readRange 9 s p y.descAddr (16 * k) = (t, 0x00, bs) →
      exec (.descriptorFetch b r) s = .next
        (beginFill (t.setRow (8 * b.val + r.val) { y with
          fills := y.fills.take y.fetched ++ (List.range k).map (fun j => fillAt bs (16 * j)) ++ y.fills.drop (y.fetched + k)
          descLeft := y.descLeft - k, descAddr := y.descAddr + 16 * k }) (8 * b.val + r.val)))

/-! ## Memory -/

/-- R28, R39, R45, R46, R155, R174, R175, R185, R366: a write that covers a whole burst lands with fresh check words whatever the burst held; an access in part lands too,
unless its burst cannot be corrected; a read or a patrol read changes nothing where nothing is wrong, and counts and records what it corrects or
cannot correct. A request to a channel that is being retrained is held, and one to a channel whose retrain failed ends with DATA_ERROR; in
self-refresh none reaches a controller. An access outside main memory is the management core's: it reads slots and instruction memories and reaches
the bay buffers below their stream areas; one outside every range or in a stream area ends with ADDRESS_RANGE, and one to a bay whose partition is
RESETTING with FENCED. Bytes stored are read back, every other byte is as it was, and a burst written
whole is correctable again. Where it rests on a choice of the model's, entries 13, 111 and 160 of the log say so. -/
def Obligations.MemoryBursts : Prop :=
  (∀ (n : Fin 24) (q : MemReq) (e : Ecc) (s : State),
      let ctl := (placeOf s q.addr).1
      let ch := (channelOf (placeOf s q.addr).2).1
      let b := q.addr / 64
      let len := match q.write with
        | some bs => bs.length
        | none => q.len
      0 < len → q.addr % 64 + len ≤ 64 →
      (memSize ≤ q.addr →
        let ends (t : State) (st : Byte) (bs : Bytes) : Prop :=
          exec (.controllerRequest n q e) s = .next (t.send (.access q.addr st bs))
        (region q.addr = none → ends s 0x02 []) ∧
        let resets (y : Nat) : Prop := (s.bay y).part.toNat < 8 ∧ s.getN Obj.partState ((s.bay y).part.toNat + 1) = 5
        (∀ c off, region q.addr = some (.window c off) → resets (c / 128) → ends s 0x06 []) ∧
        (∀ y off, region q.addr = some (.buffer y off) → resets y → ends s 0x06 []) ∧
        (∀ c off, region q.addr = some (.window c off) → ¬resets (c / 128) → (q.write ≠ none ∨ off < 0x1_8000 → ends s 0x02 []) ∧
          (q.write = none → (0x1_8000 ≤ off → off + q.len ≤ 0x1_A000 → ends s 0x00 (readBytes (s.core c).slot0.data (off - 0x1_8000) q.len)) ∧
            (0x1_A000 ≤ off → off + q.len ≤ 0x1_C000 → ends s 0x00 (readBytes (s.core c).slot1.data (off - 0x1_A000) q.len)) ∧
            (0x1_C000 ≤ off → off + q.len ≤ 0x2_0000 → ∃ bs, ends s 0x00 bs ∧ bs.length = q.len ∧ ∀ i < q.len,
              bs.getD i 0 = (look 0 (s.row (rowOf c)).imem ((off - 0x1_C000 + i) / 8)).extractLsb' (8 * ((off - 0x1_C000 + i) % 8)) 8))) ∧
        (∀ y off, region q.addr = some (.buffer y off) → ¬resets y → (0x8_0000 < off + len → ends s 0x02 []) ∧ (off + len ≤ 0x8_0000 →
          (q.write = none → ends s 0x00 (readBytes (s.bay y).buffer off q.len)) ∧
          (∀ bs, q.write = some bs → ends (s.setBay y { s.bay y with buffer := writeBytes (s.bay y).buffer off bs }) 0x00 [])))) ∧
      (q.addr < memSize → ctl = n.val → s.power.resting = true → exec (.controllerRequest n q e) s = .next s) ∧
      (q.addr < memSize → ctl = n.val → s.power.resting = false → onFailedChannel s q.addr len = true →
        exec (.controllerRequest n q e) s = .next (faultAsker s q)) ∧
      (q.addr < memSize → ctl = n.val → s.power.resting = false → onFailedChannel s q.addr len = false →
        (s.channelUp ctl ch = false → exec (.controllerRequest n q e) s = .next s) ∧
        (s.channelUp ctl ch = true → retraining s q.addr len = true →
          exec (.controllerRequest n q e) s = .next
            { s with raising := { s.raising with held := s.raising.held ++ [.burst n q e] } })) ∧
      (q.addr < memSize → ctl = n.val → s.power.resting = false → onFailedChannel s q.addr len = false → s.channelUp ctl ch = true →
        retraining s q.addr len = false →
        let kept := if e = .corrected then noteCorrected s (64 * b) else s
        (∀ bs, q.write = some bs → bs.length = 64 → exec (.controllerRequest n q e) s = .next (storeMem s q.addr bs)) ∧
        (∀ bs, q.write = some bs → bs.length < 64 →
          (e ≠ .uncorrectable → b ∉ s.bad → exec (.controllerRequest n q e) s = .next (storeMem kept q.addr bs)) ∧
          ((e = .uncorrectable ∨ b ∈ s.bad) →
            exec (.controllerRequest n q e) s = .next (faultAsker (noteUncorrectable 7 (markBad s b) (64 * b)) q))) ∧
        (q.write = none →
          (e ≠ .uncorrectable → b ∉ s.bad → exec (.controllerRequest n q e) s = .next kept) ∧
          ((e = .uncorrectable ∨ b ∈ s.bad) →
            exec (.controllerRequest n q e) s = .next (faultAsker (noteUncorrectable q.reader.toNat (markBad s b) (64 * b)) q))))) ∧
  (∀ (n : Fin 24) (a : Nat) (e : Ecc) (s : State),
      let ctl := (placeOf s a).1
      let b := a / 64
      a < memSize → ctl = n.val → s.channelUp ctl (channelOf (placeOf s a).2).1 = true → retraining s a 1 = false →
      (s.power.resting = true → exec (.patrol n a e) s = .next s) ∧
      (s.power.resting = false →
        (e = .clean → b ∉ s.bad → exec (.patrol n a e) s = .next s) ∧
        (e = .corrected → b ∉ s.bad → exec (.patrol n a e) s = .next (noteCorrected s (64 * b))) ∧
        ((e = .uncorrectable ∨ b ∈ s.bad) → exec (.patrol n a e) s = .next (noteUncorrectable 0 (markBad s b) (64 * b))))) ∧
  (∀ (s : State) (a : Nat) (bs : Bytes),
      let t := storeMem s a bs
      (∀ i, byteAt t.mem i = if a ≤ i ∧ i < a + bs.length then bs.getD (i - a) 0 else byteAt s.mem i) ∧
      readBytes t.mem a bs.length = bs ∧
      (∀ w, w ∈ t.bad ↔ w ∈ s.bad ∧ ¬(a ≤ 64 * w ∧ 64 * w + 64 ≤ a + bs.length)) ∧
      (Memory.wf s.mem = true → Memory.wf t.mem = true))

/-- R190, R191, R194, R198, R202, R203, R366, R476: a page is mapped with frames from its partition's ring, once its entry has been read, and both copies of the
entry are written, or, where the ring cannot supply them all, not at all; the two copies of a joist page or a record lie on different controllers. A slice that missed installs what the
joist page holds, of its other copy where one cannot be read, and two unreadable copies fault the context. A scrubbed frame reads zero and returns to its ring; a controller that has scrubbed
its part of an extent leaves it zero, and the last one returns the extent to those that can be placed; while one of the controller's channels cannot
be written, none is done. In self-refresh none of these happens. Where it rests on a choice of the model's, entries 33, 126, 127 and 173 of the log
say so. -/
def Obligations.PagesAndScrubs : Prop :=
  (∀ (p : Fin 8) (x : Fin 4096) (page : Nat) (s : State),
      let c := s.ctx x
      c.part = p.val → (c.state = .bound ∨ c.state = .active ∨ c.state = .parked) → page < s.getN Obj.partWinpages (p.val + 1) →
      (s.power.resting = true → exec (.allocationRequest p x page) s = .next s) ∧
      (c.frame page ≠ none → exec (.allocationRequest p x page) s = .next s) ∧
      (mappingWaits s p x page = true → exec (.allocationRequest p x page) s = .next s) ∧
      (s.power.resting = false → c.frame page = none → mappingWaits s p x page = false →
        (∀ t, mapFails s x page = (t, true) → exec (.allocationRequest p x page) s = .next t ∧ (t.ctx x).state = .faulted) ∧
        (∀ t, mapFails s x page = (t, false) →
          (∀ f u, allocate t p x page = some (f, u) →
            exec (.allocationRequest p x page) s = .next (if mapLost u x page then markFaulted u x else u) ∧ (u.ctx x).frame page = some f ∧
            let copies := look (0, 0) (u.ctx x).joistPages (page / 16384)
            ∀ j ∈ [copies.1, copies.2], let a := j * 65536 + page % 16384 * 4
              unreadable u (a / 64) = false → readBytes u.mem a 4 = leBytes 4 (2 ^ 31 + f % 2 ^ 25)) ∧
          (allocate t p x page = none → exec (.allocationRequest p x page) s = .next t)))) ∧
  (∀ (n c : Nat) (ring fs : List Nat) (rest : List Nat × Nat), handOut n 24 ring c = some (fs, rest) →
      fs.length = n ∧ (fs ++ rest.1).Perm ring ∧ ∀ a b gs, fs = a :: b :: gs → frameCtl a ≠ frameCtl b) ∧
  (∀ (b : Fin 64) (p : Fin 8) (page : Nat) (first second : Ecc) (s : State) (y lp a a' : Nat),
      (∀ e ∈ (s.bay b).joist, ¬(e.part = p.val ∧ e.page = page)) → spanPage s p page = .inr (y, lp) →
      entryBursts s y lp = some (a, a') → retraining s (64 * a) 64 = false →
      (s.power.resting = true → exec (.refill b p page first second) s = .next s) ∧ (s.power.resting = false →
      (unreadable s a = false → first ≠ .uncorrectable → exec (.refill b p page first second) s = .next (
        installRefill ((if first = .corrected then noteCorrected s (64 * a) else s).count Obj.joistRefills 0 64) b p y page lp)) ∧
      (unreadable s a = true → unreadable s a' = false → second ≠ .uncorrectable → exec (.refill b p page first second) s = .next (
        installRefill ((findMap ((findMap s a first).count Obj.joistRefills 0 64) a' second).note (some p) .joistCopy [y, lp]) b p y page lp)) ∧
      (unreadable s a = true → unreadable s a' = true → (s.ctx y).state ≠ .free → (s.ctx y).state ≠ .closing →
        ∃ t, exec (.refill b p page first second) s = .next t ∧ (t.ctx y).state = .faulted))) ∧
  (∀ (n : Fin 24) (s : State), let held : Prop := ∃ u, u / 8 = n.val ∧ (u ∈ s.raising.failedCh ∨ ∃ o, s.raising.retrain = some (0x21, u, o))
      (s.power.resting = true ∨ held → exec (.scrubDone n) s = .next s) ∧ (s.power.resting = false → ¬held →
      (∀ f rest, (s.mc n).scrub = f :: rest →
        ∃ t, exec (.scrubDone n) s = .next t ∧ (t.mc n).scrub = rest ∧
          (∀ i, byteAt t.mem i = if f * pageSize ≤ i ∧ i < (f + 1) * pageSize then 0 else byteAt s.mem i)) ∧
      (∀ e, (s.mc n).scrub = [] →
        s.scrubExt.find? (fun e => (holdersOf s e).contains n.val && !(look [] s.scrubbed e).contains n.val) = some e →
        let done := look [] s.scrubbed e ++ [n.val]
        ∃ t, exec (.scrubDone n) s = .next t ∧
          (∀ i, byteAt t.mem i = if i / gib = e ∧ (placeOf s i).1 = n.val then 0 else byteAt s.mem i) ∧
          ((∀ m ∈ holdersOf s e, m ∈ done) → t.scrubExt = s.scrubExt.filter (· != e)) ∧
          ((∃ m ∈ holdersOf s e, m ∉ done) → t.scrubExt = s.scrubExt ∧ look [] t.scrubbed e = done))))

/-! ## The sampler -/

/-- R200, R207, R208, R210, R221, R225, R227, R228: a sampler unit serves the queued partition that has had the fewest intake cycles for its share; what
it does with that partition's first descriptor: it ends the send of one that is out of range, begins a row's engine, or takes the logits and ends
the send with OK, or with DATA_ERROR where a logit cannot be corrected, which leaves the sequence uncommitted. A spilled row is restored once an
engine is free, for which the least recently used one is spilled and counted; a descriptor whose engine loads, or that finds none free, is
held, and only descriptors of rows already loaded, or the next partition, go ahead. An engine reads its record, from the other copy where one cannot be read, and then its row's
mask: its grammar state's entry, its exceptions and the base bitmap, where the unit's cache of 8 does not hold it. With all of it the row's mask is
ready, with a burst that cannot be corrected it is in error, and without its grammar it is absent; two uncorrectable copies of the record fault the
context and close its entry with DATA_ERROR. Where it rests on a choice of the model's, entries 13, 128, 131, 142, 162, 180 (the
reader kind of a bad record), 192, 193, 195 (which copy of a record is read first) and 199 (while the least recently used engine cannot be spilled,
none is free) of the log say so. -/
def Obligations.SamplerRows : Prop :=
  (∀ (u : Fin 8) (s : State) (d : SliceDesc) (others : List Nat),
      let x := (s.su u).shared
      let y := s.setSu u x
      x.queued.foldl (fun l p => byShare y x p l) [] = d.part :: others → x.descs.find? (·.part == d.part) = some d →
      let c := y.ctx d.ctx
      let v := c.params.vocab
      let rows := rowsOfCtx y u d.ctx
      let z := y.setSu u { x with spent := put 0 x.spent d.part (look 0 x.spent d.part + d.cycles) }
      let clean : Prop := ∀ w ∈ wordsIn d.off (d.count * (if d.fp32 then 4 else 2)), w ∉ (s.core d.core).badWords
      ((∀ p < 8, 1 ≤ s.getN Obj.sampShare (p + 1)) → ∀ q ∈ x.queued,
        look 0 x.spent d.part * s.getN Obj.sampShare (q + 1) ≤ look 0 x.spent q * s.getN Obj.sampShare (d.part + 1)) ∧
      ((y.token d.part d.ctx = none ∨ c.part ≠ d.part ∨ c.state ≠ .active ∨ v < d.base + d.count) →
        exec (.sliceDescriptor u) s = .next (endSend (leave y u d) d 0x02)) ∧
      (∀ t, y.token d.part d.ctx = some t → c.part = d.part → c.state = .active → d.base + d.count ≤ v →
        (t.closed = true → clean → exec (.sliceDescriptor u) s = .next (endSend (leave z u d) d 0x00)) ∧
        (t.closed = false → (∀ e ∈ rows, e.whole v = true → e.last = false ∧ e.row < t.drafts.length) →
          (∀ e, rows.find? (fun e => !e.whole v) = some e → c.spill ≠ some e → e.mask ≠ .loading →
            (∀ i < d.count, look none e.logits (d.base + i) = none) →
            (clean → exec (.sliceDescriptor u) s =
              .next (endSend (leave (z.setSu u (receive (z.su u) d e.row (sliceLogits (s.core d.core) d))) u d) d 0x00)) ∧
            (¬clean → exec (.sliceDescriptor u) s = .next (endSend (loseSequence (leave z u d) d.part d.ctx) d 0x04))) ∧
          let held : Prop := ∀ rest, x.descs.filter (·.part == d.part) = d :: rest → exec (.sliceDescriptor u) s = .next
            (((serveSlices y u rest [d.ctx]).orElse fun _ =>
              others.findSome? fun p => serveSlices y u (x.descs.filter (·.part == p)) []).getD y)
          (∀ e, rows.find? (fun e => !e.whole v) = some e → (∀ i < d.count, look none e.logits (d.base + i) = none) →
            (c.spill ≠ some e → e.mask = .loading → held) ∧
            (c.spill = some e →
              (freeEngine y u = none → held) ∧
              (∀ f, freeEngine y u = some f → exec (.sliceDescriptor u) s = .next (
                let g := f.setCtx d.ctx { f.ctx d.ctx with spill := none }
                g.setSu u { g.su u with engines := e :: (g.su u).engines })))) ∧
          (rows.find? (fun e => !e.whole v) = none → t.rowsDone + (rows.filter (·.whole v)).length ≤ t.drafts.length →
            (freeEngine y u = none → held) ∧
            (∀ f, freeEngine y u = some f → exec (.sliceDescriptor u) s = .next (f.setSu u { f.su u with engines :=
              ({ part := d.part, ctx := d.ctx, row := t.rowsDone + (rows.filter (·.whole v)).length, logits := [], count := 0
                 last := false, mask := .loading } : Engine) :: (f.su u).engines })))))) ∧
  (∀ (u : Fin 8) (s : State) (d : SliceDesc) (ds : List SliceDesc) (held : List Nat),
      (s.rowLoaded u d.ctx = true ↔
        ∃ e ∈ (s.su u).engines, e.ctx = d.ctx ∧ e.mask ≠ .loading ∧ e.whole (s.ctx d.ctx).params.vocab = false) ∧
      ((d.ctx ∈ held ∨ (held ≠ [] ∧ s.rowLoaded u d.ctx = false)) → serveSlices s u (d :: ds) held = serveSlices s u ds (d.ctx :: held)) ∧
      (∀ t, d.ctx ∉ held → s.rowLoaded u d.ctx = true → serveSlices s u [d] [] = some t → serveSlices s u (d :: ds) held = some t) ∧
      let x := s.su u
      let can (e : Engine) : Bool := e.mask != .loading && !e.whole (s.ctx e.ctx).params.vocab && (s.ctx e.ctx).spill.isNone
      (x.engines.length < 4 → freeEngine s u = some s) ∧
      (4 ≤ x.engines.length →
        (∀ e, x.engines.getLast? = some e →
          (can e = false → freeEngine s u = none) ∧
          (can e = true → freeEngine s u = some (((s.setSu u { x with engines := x.engines.erase e }).setCtx e.ctx
            { s.ctx e.ctx with spill := some e }).count Obj.sampSpills (u.val + 1) 64))))) ∧
  (∀ (u : Fin 8) (x : Fin 4096) (e : Engine) (record grammar : Ecc) (s : State),
      (s.su u).engines.find? (fun e => e.ctx == x.val && e.mask == .loading) = some e →
      let (f, f') := ((s.ctx x).record).getD (0, 0)
      let waits : Prop := retraining s (f * pageSize) pageSize = true ∨ retraining s (f' * pageSize) pageSize = true ∨
        (∃ b ∈ (maskReads s u e).1, retraining s (64 * b) 64 = true) ∨ ∃ t, s.token e.part x = some t ∧ commitWaits s e.part t = true
      let fine (f : Nat) : Prop := ∀ i < 1024, unreadable s (1024 * f + i) = false
      let first := (((List.range 1024).map (1024 * f + ·)).filter s.bad.contains).foldl (fun s b => noteUncorrectable 4 s (64 * b)) s
      (waits → exec (.engineLoaded u x record grammar) s = .next s) ∧
      (¬waits →
        (fine f → exec (.engineLoaded u x .clean grammar) s = .next (loadMask s u e grammar)) ∧
        (¬fine f → fine f' →
          exec (.engineLoaded u x .clean grammar) s = .next (loadMask (first.note (some e.part) .recordCopy [x.val]) u e grammar)) ∧
        (¬fine f → ¬fine f' → ∃ t, exec (.engineLoaded u x .clean grammar) s = .next t ∧
          ((s.ctx x).state ≠ .free → (s.ctx x).state ≠ .closing → (t.ctx x).state = .faulted) ∧
          ∀ k, s.token e.part x = some k → k.closed = false →
            ∃ k', t.token e.part x = some k' ∧ k'.closed = true ∧ k'.status = 0x04 ∧ k'.emitted = []) ∧
        exec (.engineLoaded u x .uncorrectable grammar) s = exec (.engineLoaded u x .clean grammar) (markBad s (1024 * f)))) ∧
  (∀ (u : Fin 8) (e : Engine) (s : State),
      let set (s : State) (m : RowMask) : State :=
        s.setSu u { s.su u with engines := (s.su u).engines.map fun d => if d = e then { d with mask := m } else d }
      let (bs, key) := maskReads s u e
      let bad := (bs.filter s.bad.contains).foldl (fun s b => noteUncorrectable 4 s (64 * b)) s
      (s.maskOf e.ctx = .absent → ∀ g, loadMask s u e g = set s .absent) ∧
      (s.maskOf e.ctx ≠ .absent →
        ((∀ b ∈ bs, unreadable s b = false) →
          (key = none → loadMask s u e .clean = set s .ok) ∧
          (∀ k, key = some k →
            loadMask s u e .clean = set (s.setSu u { s.su u with masks := (k :: (s.su u).masks.erase k).take 8 }) .ok)) ∧
        ((∃ b ∈ bs, unreadable s b = true) →
          loadMask s u e .clean = set (bad.note (some e.part) .grammarBad [e.ctx]) .grammarError)) ∧
      (∀ b rest, s.maskOf e.ctx ≠ .absent → bs = b :: rest → loadMask s u e .uncorrectable = loadMask (markBad s b) u e .clean) ∧
      (s.maskOf e.ctx = .free → bs = [] ∧ key = none) ∧
      (∀ g t, s.maskOf e.ctx = .by g → s.token e.part e.ctx = some t →
        (g.run s e.part (g.state (s.ctx e.ctx).gstate) (t.drafts.take e.row) = none → bs = [] ∧ key = none) ∧
        (∀ st, g.run s e.part (g.state (s.ctx e.ctx).gstate) (t.drafts.take e.row) = some st →
          let row := g.entry s e.part st
          let base := field row 0 1
          let mine := (e.part, (s.ctx e.ctx).params.grammar, base)
          key = (if base < g.bases then some mine else none) ∧
          bs = plainBursts s e.part (g.addr + g.stateOff + 16 * st) 16 ++
            (if field row 2 2 = 0 then [] else plainBursts s e.part (g.addr + g.excOff + 8 * field row 4 4) (8 * field row 2 2)) ++
            (if base < g.bases ∧ mine ∉ (s.su u).masks then plainBursts s e.part (g.addr + g.baseOff + 32768 * base) 32768 else []))))

/-- R200, R210, R214, R217, R218, R220, R221, R228, R366: the first of a sequence's whole rows is finished, unless its commit waits for a channel that is
being retrained: it gives a token, which closes the sequence where
it differs from its draft, where it is the last or none; a row that cannot be sampled closes the sequence with its status. COMMIT advances N by
the tokens emitted and appends them to the history ring of 4,096; one that cannot read the grammar state that it reaches closes its entry with
DATA_ERROR and without a token, and leaves N, ring and grammar state; every other context is as it was. exp2 keeps a relative error below 1.5 × 10⁻⁷.
Where it rests on a choice of the model's,
entries 20, 162 (a row without a usable mask closes its sequence once it is whole), 163 (SAMP_ROWS counts the rows that are drawn from), 181, 182 and
183 (what an entry reports where no token was drawn or emitted) and 198 (a commit that cannot read its grammar's state) of the log say so. -/
def Obligations.RowsComplete : Prop :=
  (
    ∀ (u : Fin 8) (x : Fin 4096) (e : Engine) (t : Token) (s : State),
      firstWhole (s.su u) x (s.ctx x).params.vocab = some e → s.token e.part x = some t → t.closed = false →
      (commitWaits s e.part t = true → exec (.rowComplete u x) s = .next s) ∧ (commitWaits s e.part t = false →
      let r := s.setSu u { s.su u with engines := (s.su u).engines.erase e }
      let w := r.count Obj.sampRows (u.val + 1) 64
      let ds := t.drafts.take e.row
      let drawn := drawToken (s.ctx x).params (t.n0 + BitVec.ofNat 64 e.row) (candidates w e.part e t)
      let after (_ : Word) (j : Nat) (lp : Word) : Token :=
        { t with nucleus := BitVec.ofNat 32 j, logprob := lp, rowsDone := e.row + 1 }
      (∀ d ∈ (s.su u).engines, d.ctx = x.val → d.mask ≠ .loading → d.whole (s.ctx x).params.vocab = true → e.row ≤ d.row) ∧
      (e.mask = .absent → exec (.rowComplete u x) s = .next (commit r e.part t 0x03 [] 0)) ∧
      ((e.mask = .grammarError ∨ e.mask = .recordError) → exec (.rowComplete u x) s = .next (commit r e.part t 0x04 [] 0)) ∧
      (e.mask = .ok →
        (drawn = none → exec (.rowComplete u x) s =
          .next (commit (w.count Obj.sampNotoken (e.part + 1)) e.part t 0x01 ds (ds.getLastD 0))) ∧
        (∀ tok j lp, drawn = some (tok, j, lp) →
          (t.drafts[e.row]? = some tok → e.last = false →
            exec (.rowComplete u x) s = .next (w.setToken e.part (after tok j lp))) ∧
          ((t.drafts[e.row]? ≠ some tok ∨ e.last = true) →
            exec (.rowComplete u x) s = .next (commit w e.part (after tok j lp) 0x00 (ds ++ [tok]) tok)))))) ∧
  (
    ∀ (s : State) (p : Nat) (t : Token) (status : Byte) (emitted : List Word) (final : Word),
      let c := s.ctx t.ctx
      let u := commit s p t status emitted final
      let d := u.ctx t.ctx
      let lost : Prop := ∃ g st, s.reached p t.ctx emitted = some (g, st) ∧ ∃ b ∈ g.entryBursts s p st, unreadable s b = true
      (¬lost → d.n = t.n0 + BitVec.ofNat 64 emitted.length ∧
        d.ring = (c.ring ++ emitted).drop ((c.ring ++ emitted).length - 4096) ∧ d.ring.length ≤ 4096 ∧ (emitted = [] → d.gstate = c.gstate)) ∧
      (lost → d.n = c.n ∧ d.ring = c.ring ∧ d.gstate = c.gstate) ∧
      (∀ k, s.token p t.ctx = some k → ∃ k', u.token p t.ctx = some k' ∧ k'.closed = true ∧
        (¬lost → k'.status = status ∧ k'.emitted = emitted ∧ k'.final = final) ∧
        (lost → k'.status = 0x04 ∧ k'.emitted = [] ∧ k'.final = 0)) ∧
      d.params = c.params ∧ d.pages = c.pages ∧ ∀ x, x ≠ t.ctx → u.ctx x = s.ctx x) ∧
  (∀ f, 10 ^ 10 * ((exp2Poly f : Int) * 2 ^ 41 - twoPow f).natAbs ≤ 1499 * twoPow f) ∧
  (∀ z1 z, let y := fp32 (fmul (fsub z z1) 0x3FB8_AA3B)
    (y.lt (.fin (-149) 0) = true → weightOf z1 z = 0) ∧ (y.lt (.fin 0 0) = false → weightOf z1 z = 0x3F80_0000))

/-! ## The Truss engine -/

/-- R236, R238, R239, R240, R241: the engine takes the posts of a partition's bays; the request whose ticket is next is admitted into a free
context, and the ticket after 65,535 is 0; where it was never posted and every core has halted, the requests behind it abort. Where it rests on a
choice of the model's, entries 11, 115, 153 and 154 of the log say so. -/
def Obligations.Admission : Prop :=
  ∀ (p : Fin 8) (r : StepRun) (s : State),
    let t := takePosts s p
    let y := t.part p
    let mine := (List.range 32).filter fun i => (match t.coll i with | some x => x.part == p.val | none => false)
    y.step = some r →
    (∀ q i, y.posts.find? (fun q => (reqOf q.bytes).ticket == y.ticket) = some q →
      (List.range 32).find? (fun i => (t.coll i).isNone) = some i →
      (mine.length < t.getN Obj.trussCtx (p.val + 1) → postWaits t p q = false → exec (.admission p) s = .next (admitPost t p q i)) ∧
      ((t.getN Obj.trussCtx (p.val + 1) ≤ mine.length ∨ postWaits t p q = true) → exec (.admission p) s = .next t)) ∧
    (y.posts.find? (fun q => (reqOf q.bytes).ticket == y.ticket) = none →
      (r.phase ≠ .loading → t.quiet p = true → exec (.admission p) s = .next (y.posts.foldl (fun s q =>
        refuse (s.setPart p { s.part p with posts := (s.part p).posts.erase q }) p q.core (reqOf q.bytes) false 0x10) t)) ∧
      ((r.phase = .loading ∨ t.quiet p = false) → exec (.admission p) s = .next t)) ∧
    (∀ next n, next < 65536 → n < 64 → ticketAhead next ((next + n) % 65536) = n)

/-- R242, R249, R250, R251, R253, R254, R255, R258: a collective in its context sends its chunks in turn to the destinations that have given it
credit, sends its credit again until a first chunk is whole, folds the chunk that was ready first in ascending member order, returns the credit of
the chunks folded without a gap, sends an unacknowledged chunk again once, by the other link of its axis than the one that it left by, and aborts
with TIMEOUT, where a chunk is due, once a first chunk has come. Where it rests on a choice of the model's, entries 43, 125, 155, 156 and 177 (the
sign of a sum that is zero) of the log say so. -/
def Obligations.Collectives : Prop :=
  ∀ (i : Fin 32) (m j : Nat) (x : Coll) (d : Peer) (s : State), s.coll i = some x → x.peer m = some d →
    (d.whole = [] → exec (.creditRegrant i m) s = .next (sendCredit s x d)) ∧
    (d.whole ≠ [] → exec (.creditRegrant i m) s = .next s) ∧
    (let g := if x.req.op = 1 then x.req.depth + prefixOf x.units x.req.shardChunks 0 else d.granted + 1
      let d' := { d with granted := g }
      (g = d.granted → regrant s i m = s) ∧ (g ≠ d.granted → regrant s i m = sendCredit (s.setColl i (some (x.setPeer d'))) x d')) ∧
    ((∀ d ∈ x.peers, d.chunks ≤ d.next ∨ d.credit ≤ d.next) → exec (.chunkSend i m) s = .next s) ∧
    (∀ k c, x.nextDest = some k → x.peers[k]? = some c →
      (c.next < c.chunks ∧ c.next < c.credit) ∧
      (∃ t < x.peers.length, k = (x.turn + t) % x.peers.length ∧
        ∀ t' < t, ∀ c, x.peers[(x.turn + t') % x.peers.length]? = some c → c.chunks ≤ c.next ∨ c.credit ≤ c.next) ∧
      (c.member = m → (∀ r ∈ x.chunkReads c c.next, layoutWaits s x.part r = false) → exec (.chunkSend i m) s =
        .next (sendChunk s i { x with turn := (k + 1) % x.peers.length } { c with next := c.next + 1 } c.next)) ∧
      (c.member ≠ m → exec (.chunkSend i m) s = .next s)) ∧
    (∀ a rest t u c cs, x.ready = a :: rest → (∀ r ∈ x.foldRanges a, layoutWaits s x.part r = false) → contributions s x a = (t, true, c :: cs) →
      writeLayout t x.part x.dst (a * x.req.size) (cs.foldl (addBytes x.req.fmt) c) = (u, true) →
      exec (.fold i) s = .next (settleColl (x.peers.foldl (fun s d => regrant s i d.member)
        (u.setColl i (some ({ x with ready := rest }.complete a)))) i)) ∧
    (j < d.next → j ∉ d.acked → chunkLeft s x d j = true →
      (j ∈ d.resent → exec (.chunkTimeout i m j) s = .next (abortColl s i x 0x05)) ∧
      (∀ a hop vc, j ∉ d.resent →
        route s ({ blankHeader with dstRack := BitVec.ofNat 8 d.rack, dstMod := BitVec.ofNat 8 d.module } : Header) = some (a, hop, vc) →
        (s.linkUp (2 * a) = true ∨ s.linkUp (2 * a + 1) = true) → (∀ r ∈ x.chunkReads d j, layoutWaits s x.part r = false) →
        exec (.chunkTimeout i m j) s = .next ((sendChunk s i x { d with resent := d.resent ++ [j] } j
          ((look none d.used j).map fun l => 1 - l % 2)).count Obj.trussResent (x.part + 1) 64))) ∧
    (d.whole = [] → exec (.receiveTimeout i m) s = .next s) ∧
    (d.whole ≠ [] →
      (∃ k, k ∉ d.whole ∧ k < d.granted ∧ ∀ n, x.chunksFrom d = some n → k < n) →
      exec (.receiveTimeout i m) s = .next (abortColl s i x 0x05))

/-! ## Links and packets -/

/-- R28, R48, R276, R278, R279, R280: a request that reaches its module is served, or answered FENCED, or ADDRESS_RANGE before any effect; its
reply waits to be sent; a reply is matched to its request by tag and generation, and one that matches none is counted and discarded. Where it
rests on a choice of the model's, entries 46 and 179 (the reader kind of a bad burst) of the log say so. -/
def Obligations.RequestsAndReplies : Prop :=
  ∀ (l : Fin 6) (h : Header) (data : Bytes) (p : Nat) (s : State),
    let f := 1 + h.flits.toNat
    let n := noteFreed (noteArrival s l h.vc.toNat f) l h.vc.toNat f
    let a := h.addr.toNat
    let hold (s : State) (st : Byte) (bs : Bytes) (due : Option Bytes) : State :=
      { s with net := { s.net with
        serving := s.net.serving ++ [(⟨h, l.val / 2, p, st, if st = 0x00 then bs else [], due⟩ : Serving)] } }
    let pages := n.spanPages p a h.len.toNat
    (∀ k ∈ [kRead, kWrite], s.Takes l k h p → stale n h = true → ∀ i ∈ packetArrives l k h data, exec i s = .next n) ∧
    (∀ k ∈ [kRead, kWrite], s.Takes l k h p → stale n h = false → (s.fenced p = true ∨ s.power.resting = true) →
      ∀ i ∈ packetArrives l k h data, exec i s = .next (hold n 0x06 [] none)) ∧
    (stale n h = false → s.fenced p = false → s.power.resting = false →
      (rangeOk n p a h.len.toNat (fun _ => true) = false → ∀ k ∈ [kRead, kWrite], s.Takes l k h p →
        ∀ i ∈ packetArrives l k h data, exec i s = .next (hold n 0x02 [] none)) ∧
      (rangeOk n p a h.len.toNat (fun _ => true) = true →
        (s.Takes l kRead h p → (rangeWaits n p a h.len.toNat = true ∨ hitPages n (linkBay (2 * (l.val / 2))) p pages = none) →
          exec (.read l h) s = .next (hold n 0x00 [] (some []))) ∧
        (s.Takes l kWrite h p → (writeWaits n p a h.len.toNat = true ∨ hitPages n (linkBay (2 * (l.val / 2))) p pages = none) →
          exec (.write l h data) s = .next (hold n 0x00 [] (some data))) ∧
        (∀ t, hitPages n (linkBay (2 * (l.val / 2))) p pages = some t →
          (∀ u st bs, s.Takes l kRead h p → rangeWaits n p a h.len.toNat = false → readRange 2 t p a h.len.toNat = (u, st, bs) →
            exec (.read l h) s = .next (hold u st bs none)) ∧
          (∀ u st, s.Takes l kWrite h p → writeWaits n p a h.len.toNat = false → writeRange t p a (padTo h.len.toNat data) = (u, st) →
            exec (.write l h data) s = .next (hold u st [] none))))) ∧
    (∀ k ∈ [kReadReply, kWriteReply], s.Takes l k h p → ∀ i ∈ packetArrives l k h data,
      (s.net.requests.find? (·.tag == h.tag) = none → exec i s = .next (n.count Obj.linkStaleReply 0 64)) ∧
      (∀ r, s.net.requests.find? (·.tag == h.tag) = some r →
        ((genOk s r h = true ∧ (r.isRead ↔ k = kReadReply)) → exec i s =
          .next (answer (dropRequest n r) r h.status (padTo r.len (if k = kReadReply then data else [])))) ∧
        (¬(genOk s r h = true ∧ (r.isRead ↔ k = kReadReply)) → exec i s = .next (n.count Obj.linkStaleReply 0 64))))

/-- R245, R249, R252, R254, R257, R366: a collective packet that reaches its module goes to the context of its partition, group and sequence; one
that is to land where a channel is being retrained is held. A chunk of the most recently finished collective, and one that was whole already, is
acknowledged again; a grant of credit, the number of chunks that may be sent in all, brings the grantor its count again while no chunk has been
acknowledged, and so does a count that comes before any credit. Where it rests on a choice of the model's, entries 43 (the count of CHUNK_CREDIT), 45,
142, 156 (how a chunk that comes again is acknowledged) and 157 of the log say so. -/
def Obligations.CollectivePackets : Prop :=
  ∀ (l : Fin 6) (h : Header) (data : Bytes) (p : Nat) (s : State),
    let f := 1 + h.flits.toNat
    let n := noteFreed (noteArrival s l h.vc.toNat f) l h.vc.toNat f
    (∀ k ∈ [kChunk, kChunkAck, kChunkCredit, kChunkCount], s.Takes l k h p → ∀ i ∈ packetArrives l k h data,
      (s.fenced p = true → exec i s = .next n) ∧
      (s.fenced p = false → matching s p h = none → finished s p h = false → exec i s = .next (n.count Obj.trussStale 0 64))) ∧
    (s.fenced p = false → matching s p h = none → finished s p h = true →
      (s.Takes l kChunk h p → exec (.chunk l h data) s = .next (sendOwn n p 64 { collHeader n p with
        kind := kChunkAck, dstRack := h.srcRack, dstMod := h.srcMod, group := h.group, member := h.member, seq := h.seq, chunk := h.chunk } [])) ∧
      (∀ k ∈ [kChunkAck, kChunkCredit, kChunkCount], s.Takes l k h p → ∀ i ∈ packetArrives l k h data, exec i s = .next n)) ∧
    (packetWaits n p h = true →
      (s.Takes l kChunk h p → exec (.chunk l h data) s = .next { n with raising := { n.raising with held := n.raising.held ++ [.packet p h data] } }) ∧
      (s.Takes l kChunkCount h p →
        exec (.chunkCount l h) s = .next { n with raising := { n.raising with held := n.raising.held ++ [.packet p h []] } })) ∧
    (∀ i x, s.fenced p = false → matching s p h = some (i, x) →
      (s.Takes l kChunk h p → packetWaits n p h = false → exec (.chunk l h data) s = .next (takeChunk h data i x n)) ∧
      (∀ d, x.peer h.member.toNat = some d → h.chunk.toNat ∈ d.whole → look [] d.dup h.chunk.toNat = [] →
        x.chunkLen d h.chunk.toNat = some h.len.toNat → takeChunk h data i x n =
          sendColl (n.setColl i (some (x.setPeer { d with dup := put [] d.dup h.chunk.toNat [] }))) x d kChunkAck d.member h.chunk.toNat 0 []) ∧
      (∀ d, s.Takes l kChunkAck h p → x.peers.find? (fun d => d.rack == h.srcRack.toNat && d.module == h.srcMod.toNat) = some d →
        h.chunk.toNat ∉ d.acked → h.chunk.toNat < d.next → exec (.chunkAck l h) s =
          .next (settleColl (n.setColl i (some (x.setPeer { d with acked := d.acked ++ [h.chunk.toNat] }))) i)) ∧
      (∀ d, s.Takes l kChunkCredit h p → x.peer h.member.toNat = some d → exec (.chunkCredit l h) s = .next (
        let t := n.setColl i (some (x.setPeer { d with credit := max d.credit h.chunk.toNat }))
        if x.req.keyed = true ∧ d.acked = [] then sendColl t x d kChunkCount x.me 0 d.count [] else t)) ∧
      (∀ d, s.Takes l kChunkCount h p → x.peer h.member.toNat = some d → d.told = none → x.req.op = 3 → exec (.chunkCount l h) s = .next (
        let y : Coll := { x with badCount := x.badCount || decide (x.req.cap < h.offset.toNat) }.setPeer { d with told := some h.offset.toNat }
        let y := if h.offset.toNat = 0 then y.complete d.member else y
        let t := writeWord n x.core (x.req.cntOff + 4 * d.member) h.offset.toNat
        let t := if d.credit = 0 then sendColl t x d kChunkCount x.me 0 d.count [] else t
        settleColl (settlePeer (t.setColl i (some y)) i d.member) i)))

/-- R264, R265, R268, R270, R274, R276, R277, R281, R285: a packet that breaks the header's rules, one whose hop is not this module and one of
another epoch are counted and discarded; one for another module goes on along the axes, and stays in its receive buffer until it leaves; a request
for a job that no partition holds is answered NO_ROUTE. A packet for a module of the rack leaves on the first axis on which the coordinates
differ, in the order X, Y, Z, and one for another rack on the axis that leads there, where its destination has this module's own index, and never
otherwise. -/
def Obligations.PacketFates : Prop :=
  (
    ∀ (l : Fin 6) (k : Byte) (h : Header) (data : Bytes) (i : Instr) (s : State), packetArrives l k h data = some i →
      let free (s : State) : State := noteFreed s l h.vc.toNat (1 + h.flits.toNat)
      let n := noteArrival s l h.vc.toNat (1 + h.flits.toNat)
      let bytes := if k = kWrite ∨ k = kReadReply ∨ k = kChunk then data else []
      (s.linkUp l = false → exec i s = .next s) ∧
      (s.linkUp l = true → s.pins.departed = false → s.pins.inReset = false →
        (validPacket l k h = false → exec i s = .next (free (n.count Obj.linkPktDiscard (l.val + 1) 64))) ∧
        (validPacket l k h = true →
          (s.ownIndex ≠ some h.hop.toNat → exec i s = .next (free (n.count Obj.linkFwdDiscard 0 64))) ∧
          (s.ownIndex = some h.hop.toNat → s.ownIndex = some h.dstMod.toNat → h.dstRack.toNat = s.rack →
            (s.jobPart h.job = none → (k = kRead ∨ k = kWrite) → exec i s = .next (sendReply (free n) 8 h 0x03 [])) ∧
            (s.jobPart h.job = none → ¬(k = kRead ∨ k = kWrite) → exec i s = .next (free n)) ∧
            (∀ p, s.jobPart h.job = some p → h.epoch.toNat ≠ s.getN Obj.jobEpoch (p + 1) →
              exec i s = .next ((free n).count Obj.linkEpochDrop 0 64))) ∧
          (s.ownIndex = some h.hop.toNat → h.dstRack.toNat ≠ s.rack → exec i s = .next (free (n.count Obj.linkFwdDiscard 0 64))) ∧
          (∀ axis hop vc, s.ownIndex = some h.hop.toNat → s.ownIndex ≠ some h.dstMod.toNat → h.dstRack.toNat = s.rack →
            h.srcRack.toNat = s.rack → route s h = some (axis, hop, vc) → l.val / 2 < axis →
            exec i s = .next (sendOn (n.count Obj.linkForwarded 0 64)
              { h, data := bytes, part := 8, bay := 64, came := some (l.val, h.vc.toNat) } none))))) ∧
  (
    ∀ (s : State) (h : Header) (me : Nat), s.ownIndex = some me → me < 64 → h.dstMod.toNat < 64 → h.dstRack.toNat = s.rack →
      (h.dstMod.toNat = me → route s h = none) ∧
      (∀ a, a < 3 → (∀ b < a, coordOn me b = coordOn h.dstMod.toNat b) → coordOn me a ≠ coordOn h.dstMod.toNat a →
        ∃ hop vc, route s h = some (a, hop, vc) ∧ hop < 64 ∧
          coordOn hop a = coordOn h.dstMod.toNat a ∧ (∀ b < 3, b ≠ a → coordOn hop b = coordOn me b) ∧
          (vc = classOf h.kind ↔ hop = h.dstMod.toNat))) ∧
  (
    ∀ (s : State) (h : Header) (me : Nat), s.ownIndex = some me → h.dstRack.toNat ≠ s.rack →
      (h.dstMod.toNat ≠ me → route s h = none) ∧
      (h.dstMod.toNat = me → route s h = (s.rackAxis h.dstRack.toNat).map fun a => (a, me, classOf h.kind)))

/-- R277, R278, R280, R425, R476: a transfer or a COPY asks a remote module for its next piece, or writes it there, once its reply has space; a reply that
waits is sent, once its access could be made, with TIMEOUT where the memory's clocks have stopped meanwhile, and a partition whose release waited for it alone is free; a request that times out frees its reservation, answers TIMEOUT and leaves its tag quarantined until
it may be used again. Where it rests on a choice of the model's, entries 46, 64, 145, 158 and 179 of the log say so. -/
def Obligations.RemoteRequests : Prop :=
  ∀ (u : Fin 8192) (id i : Nat) (tag : Word) (s : State),
    (∀ x p m a t, (s.core u).xfer id = some x → s.partOf (bayOf u) = some p → x.send = false → x.started = true → x.status = 0x00 →
      moverPlace s x.src = some (.module m a) → x.next < x.len →
      issueRequest s p (bayOf u) (.xfer u id) true s.rack m (a + x.next) (pieceLen a x.next x.len) x.next [] = some t →
      exec (.remoteRequest false u id) s =
        .next (t.setCore u ((t.core u).setXfer { x with next := x.next + pieceLen a x.next x.len }))) ∧
    (∀ x p a m b v v' bs t, (s.core u).xfer id = some x → s.partOf (bayOf u) = some p → x.send = false → x.started = true → x.status = 0x00 →
      moverPlace s x.src = some (.here a) → moverPlace s x.dst = some (.module m b) → x.wnext < x.len → (x.next = 0 ∨ x.len ≤ x.arrived) →
      let n := pieceLen b x.wnext x.len
      rangeWaits s p (a + x.wnext) n = false → hitPages s (bayOf u) p (s.spanPages p (a + x.wnext) n) = some v →
      readRange 2 v p (a + x.wnext) n = (v', 0x00, bs) →
      issueRequest v' p (bayOf u) (.xfer u id) false v'.rack m (b + x.wnext) n x.wnext (sub (zeroBytes x.wnext ++ bs) x.wnext n) = some t →
      exec (.remoteRequest false u id) s = .next (t.setCore u ((t.core u).setXfer { x with wnext := x.wnext + n }))) ∧
    (∀ c data next arrived m a t, s.cmd u id = some c → c.phase = .copying data next arrived 0x00 → next < c.at 0x20 4 →
      c.source.remote s = true → rackEnd s c.source.rack c.source.addr = some (.module m a) →
      issueRequest s (s.queue u).part 64 (.copy u id) true c.source.rack m (a + next) (pieceLen a next (c.at 0x20 4)) next [] = some t →
      exec (.remoteRequest true u id) s =
        .next (t.setPhase u id (.copying data (next + pieceLen a next (c.at 0x20 4)) arrived 0x00))) ∧
    (∀ x, (s.net.serving)[i]? = some x →
      let reply (s : State) (st : Byte) (bs : Bytes) : State :=
        releaseCheck (sendReply { s with net := { s.net with serving := s.net.serving.eraseIdx i } } x.part x.h st bs) x.part
      (∀ data, s.power.resting = true → x.due = some data → exec (.replySend i) s = .next (reply (crossStopped false s) 0x05 [])) ∧
      (x.due = none → exec (.replySend i) s = .next (reply s x.status x.data)) ∧
      (∀ data, x.due = some data →
        (serveAccess s x.station x.h x.part data = none → exec (.replySend i) s = .next s) ∧
        (∀ t st bs, serveAccess s x.station x.h x.part data = some (t, st, bs) →
          exec (.replySend i) s = .next (reply t st (if st = 0x00 then bs else []))))) ∧
    (∀ r, s.net.requests.find? (·.tag == tag) = some r → ∃ t, exec (.requestTimeout tag) s = .next t ∧
      tag ∈ t.net.quarantine ∧ (∀ r ∈ t.net.requests, r.tag ≠ tag) ∧
      look 0 t.net.pools r.station = look 0 s.net.pools r.station - r.flits ∧
      (∀ c id x, r.who = .xfer c id → (s.core c).xfer id = some x → x.id = id → ∃ y, (t.core c).xfer id = some y ∧
        y.status = if x.status = 0x00 then 0x05 else x.status)) ∧
    (∃ t, exec (.tagQuarantineEnd tag) s = .next t ∧ (∀ g, g ≠ tag → (g ∈ t.net.quarantine ↔ g ∈ s.net.quarantine)) ∧
      (s.net.quarantine.Nodup → tag ∉ t.net.quarantine))

/-- R265, R267, R268, R271, R272, R273, R286, R293: what a live link sends: a packet of the VC whose turn it is in round robin among those that
wait and have credit for all of their flits, an IDLE flit where no packet may leave, its counts, at the latest when 256 flits of a VC have been
freed, and its identity. Where it rests on a choice of the model's, entry 50 of the log says so. -/
def Obligations.LinkSends : Prop :=
  ∀ (l vc : Fin 6) (s : State),
    let y := s.link l
    (s.linkLive l = false → (∀ i ∈ [Instr.linkTransmit l vc, .creditSend l, .auditSend l, .identSend l], exec i s = .next s)) ∧
    (s.linkLive l = true →
      ((s.linkUp l = false ∨ ∀ v < 6, y.eligible v = false) → exec (.linkTransmit l vc) s = .next (s.send (.idle l))) ∧
      (∀ v, y.nextVc = some v → y.eligible v = true ∧
        ∃ i < 6, v = (y.vcTurn + i) % 6 ∧ ∀ j < i, y.eligible ((y.vcTurn + j) % 6) = false) ∧
      (∀ v, y.nextVc = some v → v ≠ vc.val → s.linkUp l = true → exec (.linkTransmit l vc) s = .next s) ∧
      (∀ x, s.linkUp l = true → y.nextVc = some vc.val → y.head vc = some x → exec (.linkTransmit l vc) s = .next (
        let h := if s.ownPacket x.h then { x.h with stamp := s.stamp } else x.h
        freeCame (noteUsed ((s.setLink l { y with
          out := put [] y.out vc ((look [] y.out vc).erase x)
          sent := put 0 y.sent vc (look 0 y.sent vc + BitVec.ofNat 16 (1 + x.h.flits.toNat))
          turn := put 0 y.turn vc (x.part + 1), vcTurn := (vc.val + 1) % 6 }).send (.packet l { x with h })) l x) x)) ∧
      (∀ v f, ∀ w < 6, look 0 ((noteFreed s l v f).link l).sinceCredit w < 256) ∧
      exec (.creditSend l) s =
        .next ((s.setLink l { y with sinceCredit := [] }).send (.credit l ((List.range 6).map (look 0 y.freed)))) ∧
      exec (.auditSend l) s = .next (s.send (.audit l ((List.range 6).map (look 0 y.sent)))) ∧
      exec (.identSend l) s = .next (s.send (.ident l (s.ident l))))

/-- R267, R272, R273, R286, R290, R291, R293: what a live link takes from the control flits that arrive. Where it rests on a choice of the
model's, entry 50 of the log says so. -/
def Obligations.ControlFlits : Prop :=
  ∀ (l : Fin 6) (i : Ident) (freed sent : List Half) (serial : Dword) (s : State),
    let y := s.link l
    exec (.idle l) s = .next s ∧
    (s.linkState l = 3 → exec (.depart l serial) s = .next (fall s l 4)) ∧
    (s.linkState l = 2 → s.linkLive l = true → ∃ t, exec (.depart l serial) s = .next t ∧ t.linkState l = 4 ∧ (t.link l).auto = true) ∧
    (s.linkState l ≠ 3 → (s.linkState l ≠ 2 ∨ s.linkLive l = false) → exec (.depart l serial) s = .next s) ∧
    (s.linkLive l = true →
      (∃ t, exec (.credit l freed) s = .next t ∧ ∀ v < 6, look 0 (t.link l).farFreed v = freed.getD v 0) ∧
      (∃ t, exec (.audit l sent) s = .next t ∧ ∀ v < 6, look 0 (t.link l).arrived v = sent.getD v 0 ∧
        look 0 (t.link l).freed v = look 0 y.freed v + (sent.getD v 0 - look 0 y.arrived v)) ∧
      (i.reserved ≠ 0 → exec (.ident l i) s = .next (s.count Obj.linkPktDiscard (l.val + 1) 64)) ∧
      (i.reserved = 0 → validIdent i = false → exec (.ident l i) s = .next (s.setB Obj.linkFarId (l.val + 1) (identBlob i))) ∧
      (i.reserved = 0 → validIdent i = true →
        ((s.linkState l ≠ 3 ∨ y.mate = none ∨ y.mate.map (·.serial) = some i.serial) → exec (.ident l i) s =
          .next ((s.setB Obj.linkFarId (l.val + 1) (identBlob i)).setLink l { y with far := some i })) ∧
        (∀ old, s.linkState l = 3 → y.mate = some old → old.serial ≠ i.serial → exec (.ident l i) s =
          .next ((fall ((s.setB Obj.linkFarId (l.val + 1) (identBlob i)).setLink l { y with far := some i }) l 5).record 0x0031
            [l.val, old.serial.toNat % 2 ^ 32, i.serial.toNat % 2 ^ 32]))))

/-- R261, R262, R263, R272, R286, R291, R363, R367, R442, R478: the states of a link: it trains at T2 and then at T1, enters IDENT when its lanes lock, which
waits in stage 5, with every count at zero and its IDENT sent, and leaves UP for DOWN on silence, on the loss of its lanes, on a bit error ratio above 10⁻³, as which a count that overran is
taken, and on more than 32 uncorrectable codewords in any 1 ms, each one that is missing from the count among them; a packet with a flit in a lost
codeword is discarded. Where it rests on a choice of the model's, entries 75, 104, 138 and 168 of the log say so. -/
def Obligations.LinkStates : Prop :=
  ∀ (l : Fin 6) (t2 : Bool) (w : Codeword) (errors bits : Nat) (s : State),
    let y := s.link l
    let st := s.linkState l
    let allow := s.getN Obj.linkRateAllow (l.val + 1)
    let recent := y.uncorr.filter fun t => decide (s.uptime < t.toNat + 1_000_000)
    let falls (i : Instr) : Prop := ∃ t, exec i s = .next t ∧ (st = 3 → t.linkState l = 0) ∧ (st ≠ 3 → t.linkState l = st)
    (s.trainingWaits l = true → exec (.lanesLocked l t2) s = .next s ∧ exec (.laneLockTimeout l) s = .next s) ∧
    (st = 1 → y.training = (if t2 then 2 else 1) → s.pins.departed = false → s.trainingWaits l = false →
      ∃ t, exec (.lanesLocked l t2) s = .next t ∧
      t.linkState l = 2 ∧ t.getN Obj.linkRate (l.val + 1) = (if t2 then 2 else 1) ∧
      (∀ v, look 0 (t.link l).sent v = 0 ∧ look 0 (t.link l).arrived v = 0 ∧ look 0 (t.link l).freed v = 0)) ∧
    (let t := enterIdent s l; t.linkState l = 2 ∧ (∃ i, t.sent = s.sent ++ [.ident l i]) ∧ (t.link l).far = y.far ∧
      ∀ v, look 0 (t.link l).sent v = 0 ∧ look 0 (t.link l).farFreed v = 0 ∧ look 0 (t.link l).arrived v = 0 ∧
        look 0 (t.link l).freed v = 0 ∧ look 0 (t.link l).sinceCredit v = 0) ∧
    (st = 1 → s.trainingWaits l = false → ∃ t, exec (.laneLockTimeout l) s = .next t ∧
      (y.training = 2 → bit allow 0 = true → t.linkState l = 1 ∧ (t.link l).training = 1 ∧ (t.link l).missed = false) ∧
      ((y.training ≠ 2 ∨ bit allow 0 = false) → t.linkState l = 0 ∧ (t.link l).missed = true)) ∧
    falls (.laneLockLost l) ∧ falls (.linkSilence l) ∧
    (s.linkLive l = true → bits < 1000 * errors → falls (.berWindow l errors bits false)) ∧
    (s.linkLive l = true → falls (.berWindow l errors bits true) ∧ ∀ t, exec (.berWindow l errors bits true) s = .next t →
      0x3A83_126F ≤ t.getN Obj.linkBer (l.val + 1) ∧ t.getN Obj.linkBer (l.val + 1) ≤ 0x3F80_0000) ∧
    (s.linkLive l = true → 1000 * errors ≤ bits → ∃ t, exec (.berWindow l errors bits false) s = .next t ∧ t.linkState l = st ∧
      (bits ≠ 0 → t.getN Obj.linkBer (l.val + 1) = (ratio32 errors bits).toNat)) ∧
    (s.linkLive l = true → ∃ t, exec (.codeword l w) s = .next t ∧
      let missing := match y.cwNext with
        | some n => if w.corrected then (w.bits.extractLsb' 5130 10 - n).toNat else 0
        | none => 0
      let bad := missing + (if w.corrected then 0 else 1)
      t.getN Obj.linkCwUncorr (l.val + 1) = (s.getN Obj.linkCwUncorr (l.val + 1) + bad) % 2 ^ 64 ∧
      (recent.length + bad ≤ 32 → t.linkState l = st) ∧ (32 < recent.length + bad → (st = 3 → t.linkState l = 0)) ∧
      (w.corrected = true → (t.link l).cwNext = some (w.bits.extractLsb' 5130 10 + 1)) ∧
      (∀ f, w.corrected = false → y.frame = some f → f.lost = false →
        t.getN Obj.linkPktDiscard (l.val + 1) = (s.getN Obj.linkPktDiscard (l.val + 1) + 1) % 2 ^ 64)) ∧
    (y.auto = true → y.retrain = false → (st = 0 ∨ st = 4) → s.pins.departed = false → s.pins.inReset = false → s.fw.busy = false →
      ∃ t, exec (.linkRetrainAttempt l) s = .next t ∧ (t.link l).retrain = true ∧ (t.link l).attempt = y.attempt + 1 ∧
        t.linkState l = (if (bit allow 1 || bit allow 0) then 1 else 0))

/-! ## Host ports -/

/-- R297, R302, R319, R485: each event by which a port loses its host resets the function or cuts it off, and declares the host lost; a host is
lost once, and by the heartbeat once its limit has passed. Where it rests on a choice of the model's, entries 10 and 55 of the log say so. -/
def Obligations.HostLoss : Prop :=
  ∀ (n : Fin 4) (s : State),
    (∀ i ∈ [Instr.functionLevelReset n, .hotReset n, .perst n],
      (s.portUp n = true → exec i s = .next (hostLost (resetFunction s n) n)) ∧ (s.portUp n = false → exec i s = .next s)) ∧
    (∀ i ∈ [Instr.pcieLinkDown n, .busMasterEnableClear n],
      (s.portUp n = true → exec i s = .next (hostLost (s.setPort n { s.port n with bme := false }) n)) ∧
      (s.portUp n = false → exec i s = .next s)) ∧
    (s.hears n 0x108 = true → exec (.detach n) s = .next (hostLost s n)) ∧
    (s.serving = true → s.getN Obj.hostState (n.val + 1) = 1 →
      (s.getN Obj.hostHbLimit (n.val + 1) * 1_000_000 ≤ s.now - (s.port n).hbTime.toNat →
        exec (.heartbeatTimeout n) s = .next (hostLost s n)) ∧
      (s.now - (s.port n).hbTime.toNat < s.getN Obj.hostHbLimit (n.val + 1) * 1_000_000 → exec (.heartbeatTimeout n) s = .next s)) ∧
    (s.getN Obj.hostState (n.val + 1) = 2 → hostLost s n = s) ∧
    (s.getN Obj.hostState (n.val + 1) ≠ 2 → (∀ p < 8, s.owner p ≠ some n.val) →
      (hostLost s n).getN Obj.hostState (n.val + 1) = 2 ∧
      (hostLost s n).getN Obj.hostLosses (n.val + 1) = (s.getN Obj.hostLosses (n.val + 1) + 1) % 2 ^ 32 ∧
      (hostLost s n).mem = s.mem ∧ (hostLost s n).cores = s.cores)

/-- R296, R298, R302, R319, R320, R378: ATTACH makes a host attached and stops its hold timer, on a link no wider than the straps give, with the size
of BAR4 and the MSI-X table that the host has set; a message goes where its table entry says, and while the entry masks it its pending bit is set; a
heartbeat is stamped with rack time; a read of the low word of rack time captures the high word; a late answer is counted; when the hold time ends the
partitions shored for HOST are released. Where it rests on a choice of the model's, entries 55, 76, 106, 134 and 161 of the log say so. -/
def Obligations.HostAttachAndTime : Prop :=
  ∀ (n : Fin 4) (v : Word) (k : PcieLink) (u : PcieSetup) (s : State),
    (s.hears n 0x108 = true → ∃ t, exec (.attach ⟨n, k, u⟩) s = .next t ∧ t.getN Obj.hostState (n.val + 1) = 1 ∧ (t.port n).holding = false ∧
      (t.port n).holdLeft = s.holdLeft n ∧ (t.port n).bme = true ∧ (t.port n).rate = k.rate ∧
      (t.port n).lanes = min k.lanes s.pcieWidth ∧ (∀ m, m ≠ n.val → t.port m = s.port m) ∧ t.mem = s.mem ∧
      (u.bar4 = none → (t.port n).barSize = (s.port n).barSize) ∧
      (∀ b, u.bar4 = some b → ((∃ i ≤ 6, b = 2 ^ i * gib) → (t.port n).barSize = b) ∧
        ((∀ i ≤ 6, b ≠ 2 ^ i * gib) → (t.port n).barSize = (s.port n).barSize)) ∧
      (u.msix = [] → ∀ a, msixBytes (t.port n) a 1 = if u.unmask = true ∧ a % 16 = 12 then [(msixBytes (s.port n) a 1).headD 0 &&& 0xFE]
        else msixBytes (s.port n) a 1) ∧
      (∀ a bs, u.msix = [(a, bs)] → a + bs.length ≤ 0x8000 → msixBytes (t.port n) a bs.length = bs)) ∧
    (∀ (x : Word) (t : State), t = sendMsix s n x → x.toNat < 2048 →
      let e := msixBytes (s.port n) (16 * x.toNat) 16
      (bit (field e 12 4) 0 = false → t = s.send (.msix n x (BitVec.ofNat 64 (field e 0 8)) (BitVec.ofNat 32 (field e 8 4)))) ∧
      (bit (field e 12 4) 0 = true → t.sent = s.sent ∧ bit (byteAt (t.port n).pba (x.toNat / 8)).toNat (x.toNat % 8) = true)) ∧
    (s.portUp n = true →
      (∃ t, exec (.hpHeartbeat n v) s = .next t ∧ (t.port n).hbTime = s.clock.time ∧ t.getR n 0x100 = v.toNat) ∧
      (∃ t, exec (.hpTimeLo n) s = .next t ∧ t.sent = s.sent ++ [.hostRead n (some (leBytes 4 (s.now % 2 ^ 32)))] ∧
        t.readReg n 0x114 = s.now / 2 ^ 32 % 2 ^ 32) ∧
      (∀ stuck, ∃ t, exec (.emuLate n stuck) s = .next t ∧ t.sent = s.sent ++ [.hostRead n (some [0xFE, 0xFF, 0xFF, 0xFF])] ∧
        t.getR n 0x8024 = (s.getR n 0x8024 + 1) % 2 ^ 32 ∧
        (s.fw.image = .runtime → s.fw.busy = false → t.fw.hung = (stuck || s.fw.hung)))) ∧
    (s.serving = true → (s.port n).holding = true →
      (s.uptime - (s.port n).holdFrom.toNat < s.getN Obj.hostHold (n.val + 1) * 1_000_000_000 →
        exec (.holdExpire n) s = .next s) ∧
      (s.getN Obj.hostHold (n.val + 1) * 1_000_000_000 ≤ s.uptime - (s.port n).holdFrom.toNat →
        exec (.holdExpire n) s = .next (upTo 8 (fun p s =>
          if s.owner p = some n.val ∧ s.pstate p = 4 ∧ bit (s.why p) 1 then release s p else s)
          (s.setPort n { s.port n with holding := false, holdLeft := 0 }))))

/-- R11, R301, R302, R305, R306, R344, R350, R378, R380: while the firmware is stuck an emulated write joins its port's queue, and one that finds
it full is discarded and counted; otherwise a value in range that is written to a register with no behaviour of its own is held and read back;
TR_ENABLE keeps bit 31 set; a register that is not written through keeps its value; MB_REQ takes words of the request. Where it rests on a choice
of the model's, entries 53, 54 and 106 of the log say so. -/
def Obligations.RegisterWrites : Prop :=
  ∀ (n : Fin 4) (off : Nat) (v : Dword) (k : PcieLink) (u : PcieSetup) (s : State),
    (s.stalled n = true → ∀ i ∈ [Instr.registerWrite n off v, .attach ⟨n, k, u⟩, .detach n, .create n, .delete n, .query n, .raise n, .reset n,
        .shore n, .unshore n, .remove n, .mbCtrlSend n (v.setWidth 32) (bit off 0), .lgCtrlStart n, .lgCtrlStop n, .fuseLoad n, .clocks n,
        .memTrainA n, .coreTest n, .reduced n, .memTrainB n, .linkTrain n, .linkSoak n, .plumb n, .ready n, .retrainChannel n,
        .retrainLink n],
      ((s.port n).emu.length < 64 → exec i s = .next (s.setPort n { s.port n with emu := (s.port n).emu ++ [i] })) ∧
      (64 ≤ (s.port n).emu.length → exec i s = .next (s.setR n 0x8024 ((s.getR n 0x8024 + 1) % 2 ^ 32)))) ∧
    (s.hears n off = true →
    (∀ r, regRow off = some r → mailboxHeld s n off = false →
      (r.access = .rws → off ≠ 0x100 → v.toNat % 2 ^ (8 * r.size) ≤ regLimit off → ∃ t, exec (.registerWrite n off v) s = .next t ∧
        t.getR n off = (if off = 0x8020 then setBit (v.toNat % 2 ^ 32) 31 true else v.toNat % 2 ^ (8 * r.size)) ∧
        (∀ m o, regKey m o ≠ regKey n off → t.getR m o = s.getR m o) ∧ t.objs = s.objs ∧ t.mem = s.mem) ∧
      (r.access ≠ .rws → exec (.registerWrite n off v) s = .next s) ∧
      (regLimit off < v.toNat % 2 ^ (8 * r.size) → exec (.registerWrite n off v) s = .next s)) ∧
    (mailboxHeld s n off = true → exec (.registerWrite n off v) s = .next s) ∧
    (mailboxHeld s n off = false → 0x600 ≤ off → off < 0xB00 → off % 4 = 0 → ∃ t, exec (.registerWrite n off v) s = .next t ∧
      t.readReg n off = v.toNat % 2 ^ 32))

/-- R174, R200, R298, R299, R366: an access through the aperture that lies in a plain part the port owns reads or writes there, and is held while a
channel of it is being retrained; a refused one reads Completer Abort or is discarded, and is counted. Where it rests on a choice of the model's, entry 77 of
the log says so. -/
def Obligations.Aperture : Prop :=
  ∀ (n : Fin 4) (off len : Nat) (data : Bytes) (s : State), s.portUp n = true →
    let p := s.getR n 0x4018
    let a := s.getR n 0x4020 + off
    let allowed (k : Nat) : Prop := p < 8 ∧ s.owner p = some n.val ∧ s.inService p = true ∧ a + k ≤ s.plain p * gib
    (len ≠ 0 → off + len ≤ (s.port n).barSize →
      (allowed len → rangeWaits s p a len = true → exec (.bar4Read n off len) s = .next
        { s with raising := { s.raising with held := s.raising.held ++ [.read n p a len] } }) ∧
      (∀ t st bs, allowed len → rangeWaits s p a len = false → readRange 6 s p a len = (t, st, bs) →
        exec (.bar4Read n off len) s = .next (t.send (.hostRead n (if st = 0x00 then some bs else none)))) ∧
      (¬allowed len → ∃ t, exec (.bar4Read n off len) s = .next t ∧ t.sent = s.sent ++ [.hostRead n none] ∧
        t.getR n 0x118 = (s.getR n 0x118 + 1) % 2 ^ 32 ∧ t.mem = s.mem)) ∧
    (data ≠ [] → off + data.length ≤ (s.port n).barSize →
      (allowed data.length → writeWaits s p a data.length = false → exec (.bar4Write n off data) s = .next (writeRange s p a data).1) ∧
      (allowed data.length → writeWaits s p a data.length = true → exec (.bar4Write n off data) s = .next
        { s with raising := { s.raising with held := s.raising.held ++ [.write n p a data] } }) ∧
      (¬allowed data.length → ∃ t, exec (.bar4Write n off data) s = .next t ∧ t.getR n 0x118 = (s.getR n 0x118 + 1) % 2 ^ 32 ∧
        t.mem = s.mem))

/-! ## Partitions -/

/-- R304, R305, R316, R359, R415, R417, R418, R425: PT_CMD of the owner in a state that allows it: RAISE, RESET, SHORE, UNSHORE and REMOVE; the
firmware's formation of a partition and the end of its reset. A released partition is ABSENT once no access to it is in progress. A PT_CMD of a port that does not own the partition changes nothing and reads
NOT_OWNER; one whose partition is in a state that does not allow it changes nothing and reads STATE_CONFLICT. Where it rests on a choice of the
model's, entries 72, 74, 158 and 175 of the log say so. -/
def Obligations.PartitionCommands : Prop :=
  (∀ (n : Fin 4) (p : Fin 8) (s : State),
      (s.hears n 0x4004 = true → s.getR n 0x4000 = p.val → s.owner p = some n.val → (s.part p).releasing = false →
        (s.pstate p = 0 → (s.served = 0 ∨ (formCheck s p).1 = 0) →
          exec (.raise n) s = .next ((s.setPstate p 1).setResult p n 1)) ∧
        (s.pstate p = 0 → s.served ≠ 0 → (formCheck s p).1 ≠ 0 → exec (.raise n) s = .next (failForm s p (formCheck s p))) ∧
        (s.pstate p ∈ [2, 3, 4] →
          exec (.reset n) s = .next (startReset (s.setResult p n 1) p 1 (s.pstate p)) ∧
          exec (.remove n) s = .next (release (s.setResult p n 1) p)) ∧
        (s.pstate p ∈ [2, 3] → exec (.shore n) s = .next (startDrain (s.setResult p n 1) p 1)) ∧
        (s.pstate p = 4 → exec (.shore n) s = .next ((s.setWhy p (s.why p ||| 1)).setResult p n 0) ∧
          exec (.unshore n) s = .next (tryReturn (((s.setResult p n 0).stopDrain p).setWhy p (s.why p - (s.why p &&& 19))) p))) ∧
      (s.pstate p = 1 → s.served ≠ 0 → s.serving = true → s.pins.departed = false →
        ((formCheck s p).1 ≠ 0 → exec (.formation p) s = .next (failForm s p (formCheck s p))) ∧
        (∀ x, (formCheck s p).1 = 0 → placement s p = some x →
          (scrubbed s x = true → exec (.formation p) s = .next (formed s p x)) ∧
          (scrubbed s x = false → exec (.formation p) s = .next s))) ∧
      (s.pstate p = 5 → s.serving = true → s.pins.departed = false →
        ((genRecent s p = true ∨ reconcileWaits s p = true) → exec (.resetDone p) s = .next s) ∧
        (genRecent s p = false → reconcileWaits s p = false →
          (((s.part p).edgeWait = false ∨ ∀ r ∈ s.net.requests, r.part ≠ p.val) → exec (.resetDone p) s = .next (endReset s p)) ∧
          ((s.part p).edgeWait = true → (∃ r ∈ s.net.requests, r.part = p.val) →
            (s.uptime < (s.part p).resetAt.toNat + 10_000_000 → exec (.resetDone p) s = .next s) ∧
            ((s.part p).resetAt.toNat + 10_000_000 ≤ s.uptime →
              exec (.resetDone p) s = .next (endReset ((tagRequests s p).note (some p.val) .edgeTagged [p.val]) p)))))) ∧
  (∀ (p : Fin 8) (s : State),
      let t := stopReleased s p
      let u := t.setPart p { t.part p with releasing := true }
      (u.accessed p = true → release s p = u ∧ u.inService p = false ∧ u.fenced p = true) ∧
      (u.accessed p = false → release s p = freePart u p ∧ (release s p).pstate p = 0 ∧ (release s p).getN Obj.jobId (p.val + 1) = 0xFFFF ∧
        (release s p).queuesOf p = [] ∧
        (∀ x, ((release s p).ctx x).state ≠ .free → ((release s p).ctx x).part ≠ p.val))) ∧
  (∀ (n : Fin 4) (s : State), s.hears n 0x4004 = true →
      let p := s.getR n 0x4000
      (∀ i ∈ [Instr.raise n, .reset n, .shore n, .unshore n, .remove n], s.owner p ≠ some n.val →
        ∃ t, exec i s = .next t ∧ t.readReg n 0x4008 = 3 ∧
          t.objs = s.objs ∧ t.mem = s.mem ∧ t.ctxs = s.ctxs ∧ t.cores = s.cores) ∧
      (s.owner p = some n.val → ∀ i,
        ((i ∈ [Instr.raise n, .reset n, .shore n, .unshore n, .remove n] ∧ (s.part p).releasing = true) ∨ (i = .raise n ∧ s.pstate p ≠ 0) ∨ (i = .unshore n ∧ s.pstate p ≠ 4) ∨
          (i ∈ [Instr.reset n, .shore n, .remove n] ∧ s.pstate p ∉ [2, 3, 4])) →
        ∃ t, exec i s = .next t ∧ look 0 (t.part p).results n = 2 ∧ t.objs = s.objs ∧ t.mem = s.mem ∧ t.ctxs = s.ctxs ∧
          t.cores = s.cores))

/-- R298, R306, R307, R308, R438: a port creates a queue from its registers where R306 allows it, and deletes and queries its own; a doorbell
moves the tail or the head of a queue of its port, and a value at or above the size is ignored and recorded. Where it rests on a choice of the
model's, entries 14 and 56 of the log say so. -/
def Obligations.Queues : Prop :=
  ∀ (n : Fin 4) (q : Fin 4096) (v : Word) (es : List Bytes) (s : State),
    let a := abortUnstarted s q
    (s.hears n 0x1034 = true → s.getR n 0x1000 = q.val →
      (createResult s n = 0 → exec (.create n) s = .next ((s.setR n 0x1038 0).setQueue q (newQueue s n))) ∧
      (createResult s n ≠ 0 → exec (.create n) s = .next (s.setR n 0x1038 (createResult s n))) ∧
      ((s.queue q).port ≠ some n → exec (.delete n) s = .next (s.setR n 0x1038 3) ∧ exec (.query n) s = .next (s.setR n 0x1038 3)) ∧
      ((s.queue q).port = some n →
        (∃ t, exec (.query n) s = .next t ∧ t.getR n 0x1008 = (s.queue q).sqBase.toNat ∧ t.getR n 0x1010 = (s.queue q).sqSize ∧
          t.getR n 0x1018 = (s.queue q).cqBase.toNat ∧ t.getR n 0x1020 = (s.queue q).cqSize ∧
          t.getR n 0x1024 = (s.queue q).vector.toNat ∧ t.getR n 0x1028 = (s.queue q).part ∧
          t.getR n 0x102C = (s.queue q).weight ∧ t.getR n 0x1030 = (s.queue q).timeout.toNat ∧
          t.getR n 0x103C = (s.queue q).shed ∧ t.getR n 0x1038 = 0 ∧ t.queue q = s.queue q) ∧
        exec (.delete n) s = .next (
          let t := (s.setR n 0x1038 1).setQueue q { s.queue q with deleting := true }
          settleWork (abortUnstarted (t.setPort n { t.port n with deletes := some q.val }) q) (s.queue q).part))) ∧
    ((∀ c ∈ (a.queue q).cmds, c.phase ≠ .accepted) ∧
      (∀ c ∈ (s.queue q).cmds, c.phase = .accepted → ∃ d ∈ (a.queue q).cmds, d.seq = c.seq ∧ d.phase ≠ .accepted) ∧
      (∀ c ∈ (s.queue q).cmds, c.phase = .accepted → (s.part (s.queue q).part).boundary = some (q.val, c.seq) →
        (a.part (s.queue q).part).boundary = none)) ∧
    (s.portUp n = true → (s.queue q).port = some n →
      ((s.queue q).sqSize ≤ v.toNat → exec (.dbSqTail n q v es) s = .next (s.record 0x0050 [n.val, q.val, v.toNat, 0])) ∧
      (v.toNat < (s.queue q).sqSize → exec (.dbSqTail n q v es) s = .next (
        let x := s.queue q
        let k := (v.toNat + x.sqSize - x.sqTail) % x.sqSize
        fetchQueue (s.setQueue q { x with
          sqTail := v.toNat, posted := x.posted ++ (List.range k).map fun i => padTo 64 (es.getD i []) }) q)) ∧
      ((s.queue q).cqSize ≤ v.toNat → exec (.dbCqHead n q v) s = .next (s.record 0x0050 [n.val, q.val, v.toNat, 1])) ∧
      (v.toNat < (s.queue q).cqSize → s.serving = true → exec (.dbCqHead n q v) s =
        .next (settleWork (s.setQueue q { s.queue q with cqHead := v.toNat, msiSent := false }) (s.queue q).part)))

/-! ## Queue commands -/

/-- R110, R153, R312, R314, R317, R366, R420, R438, R497: a STEP whose checks pass is launched where the controllers have room for its streams, and
holds its partition's boundary where they have not, or where a read of its checks waits for a retrain; one that fails completes with its status,
and with DATA_ERROR the contexts that it names are FAULTED; one that JOB_WAIT or stage 1 holds waits. Where it rests on a choice of the model's, entries 40, 42 and 79 of the log say so. -/
def Obligations.Steps : Prop :=
  ∀ (q : Fin 4096) (p : Nat) (c : Cmd) (s : State), s.Dispatches q 2 0 c p →
    let d := s.dispatched q c p
    let holds (s : State) : State := s.setPart p { s.part p with boundary := some (q.val, c.seq) }
    (s.heldStep p q c = true → exec (.step q) s = .next s) ∧
    (s.heldStep p q c = false →
      (stepWaits d p c = true → exec (.step q) s = .next (holds d)) ∧
      (stepWaits d p c = false →
        (∀ t st, checkStep d p c = (t, .inl st) → exec (.step q) s =
          .next (finish (if st = 0x04 then faultNamed t p c else t) q c.seq { status := st })) ∧
        (∀ (t : State) i a x, i < c.at 0x28 2 → resolve t p (c.at 0x20 8 + 2 * i) = some (.mem a) → unreadable t (a / 64) = false →
          t.boundTo p (leNat (plainBytes t p (c.at 0x20 8 + 2 * i) 2)) = some x → (t.ctx x).state ≠ .closing →
          ((faultNamed t p c).ctx x).state = .faulted) ∧
        (∀ t plan, checkStep d p c = (t, .inr plan) →
          let ds := streamsOf ((sectionBytes plan.img 5).getD [])
          (roomFor t p ds = true → exec (.step q) s = .next (launch t p q c plan)) ∧
          (roomFor t p ds = false → exec (.step q) s = .next (holds t)))))

/-- R190, R195, R196, R197, R198, R211, R312, R318, R366, R423: each CONTEXT op in the states that allow it, on a context of its partition, and
STATE_CONFLICT in the others; one whose parameters a retrain holds back, and one that binds, parks or closes while an access addresses the slot's
window, waits. Where it rests on a choice of the model's, entries 78 and 184 of the log say so. -/
def Obligations.ContextCommands : Prop :=
  ∀ (q : Fin 4096) (p : Nat) (c : Cmd) (s : State),
    let x := c.at 0x10 2
    let v := s.ctx x
    let d := s.dispatched q c p
    let ends (i : Instr) (st : Byte) : Prop := exec i s = .next (finish d q c.seq { status := st })
    (∀ i ∈ [(Instr.openCtx q, 1), (.bind q, 2), (.resume q, 3), (.park q, 4), (.close q, 5), (.setParams q, 6)],
      s.Dispatches q 1 i.2 c p →
        (s.ownsCtx p x = false → ends i.1 0x09) ∧
        (s.ownsCtx p x = true → (match i.2 with
            | 1 => v.state ≠ .free
            | 2 | 3 => v.state ≠ .parked
            | 4 => v.state ≠ .bound
            | 5 => v.state ≠ .bound ∧ v.state ≠ .parked ∧ v.state ≠ .faulted
            | _ => v.state ≠ .bound ∧ v.state ≠ .parked) → ends i.1 0x07)) ∧
    (s.ownsCtx p x = true →
      (paramsWait d p c = true →
        (s.Dispatches q 1 1 c p → v.state = .free → exec (.openCtx q) s = .next (hold d p q c)) ∧
        (s.Dispatches q 1 6 c p → (v.state = .bound ∨ v.state = .parked) → exec (.setParams q) s = .next (hold d p q c))) ∧
      (∀ t u w ps n ts a b, s.Dispatches q 1 1 c p → v.state = .free → paramsWait d p c = false → readParams d p c = (t, .inr ps) →
        readPreload t p c ps.vocab = (u, .inr (n, ts)) → takeFrames u p 2 = some ([a, b], w) →
        exec (.openCtx q) s = .next (finish (w.setCtx x
          { state := .parked, part := p, params := ps, n, ring := ts, gstate := ps.gstate, record := some (a, b) }) q c.seq {})) ∧
      (s.Dispatches q 1 2 c p → v.state = .parked →
        (s.boundTo p (c.at 0x12 2) = none →
          (d.spanBusy p (c.at 0x12 2) = false → exec (.bind q) s = .next (bindTo d p q x (c.at 0x12 2) c)) ∧
          (d.spanBusy p (c.at 0x12 2) = true → exec (.bind q) s = .next (hold d p q c))) ∧
        (s.boundTo p (c.at 0x12 2) ≠ none → ends (.bind q) 0x11)) ∧
      (s.Dispatches q 1 3 c p → v.state = .parked →
        (∀ k, k < s.getN Obj.partWindows (p + 1) → s.boundTo p k = none → (∀ j < k, s.boundTo p j ≠ none) →
          (d.spanBusy p k = false → exec (.resume q) s = .next (bindTo d p q x k c)) ∧
          (d.spanBusy p k = true → exec (.resume q) s = .next (hold d p q c))) ∧
        ((∀ k < s.getN Obj.partWindows (p + 1), s.boundTo p k ≠ none) → ends (.resume q) 0x11)) ∧
      (s.Dispatches q 1 4 c p → v.state = .bound →
        exec (.park q) s = .next (leaveSlot d p q x c .parked (v.slot.getD 0))) ∧
      (s.Dispatches q 1 5 c p → (v.state = .bound ∨ v.state = .parked ∨ v.state = .faulted) →
        exec (.close q) s = .next (leaveSlot d p q x c .closing (if v.state = .faulted then 1 else 0))) ∧
      (∀ k st slot, v.slot = some k → d.spanBusy p k = true → leaveSlot d p q x c st slot = hold d p q c) ∧
      (∀ t ps, s.Dispatches q 1 6 c p → (v.state = .bound ∨ v.state = .parked) → paramsWait d p c = false →
        readParams d p c = (t, .inr ps) →
        exec (.setParams q) s = .next (finish (t.setCtx x { t.ctx x with params := ps, gstate := ps.gstate }) q c.seq {})))

/-- R221, R222, R224, R310, R311, R313, R314, R315, R376, R496: COPY, GRAMMAR, FENCE and TIMER as their queue dispatches them, their completion
and their timeout, which is kept while no firmware acts, and is none for a FENCE or a deadline whose condition is met; a page that finds no frame ends a
COPY with NO_FRAMES and leaves its destination as written. Where it rests on a choice of the model's, entries 14 and 171 of the log say so. -/
def Obligations.OtherCommands : Prop :=
  ∀ (q : Fin 4096) (p seq : Nat) (c : Cmd) (host : Bytes) (s : State),
    (s.Dispatches q 3 0 c p →
      (copyStatus s p c = 0x00 → exec (.copy q host) s = .next (s.setPhase q c.seq
        (.copying (if c.at 0x24 1 = 1 then padTo (c.at 0x20 4) host else []) 0 0 0x00))) ∧
      (copyStatus s p c ≠ 0x00 → exec (.copy q host) s = .next (finish s q c.seq { status := copyStatus s p c }))) ∧
    (∀ t u h img, s.Dispatches q 4 1 c p → s.inPlain p (c.at 0x18 8) 64 = true →
      let d := s.dispatched q c p
      (s.raising.retrain = none ∨ rangeWaits d p (c.at 0x18 8) (max 64 (field (plainBytes d p (c.at 0x18 8) 64) 0x24 4)) = false) →
      readRange 9 d p (c.at 0x18 8) 64 = (t, 0x00, h) → t.inPlain p (c.at 0x18 8) (max 64 (field h 0x24 4)) = true →
      readRange 9 t p (c.at 0x18 8) (max 64 (field h 0x24 4)) = (u, 0x00, img) →
      (validGrammar img = true → exec (.grammarLoad q) s = .next (finish (setGrammar u p (c.at 0x10 1) (some
        { addr := c.at 0x18 8, bases := field img 5 1, states := field img 8 4, start := field img 0xC 4, vocab := field img 0x10 4
          baseOff := field img 0x18 4, stateOff := field img 0x1C 4, excOff := field img 0x20 4 })) q c.seq {})) ∧
      (validGrammar img = false → exec (.grammarLoad q) s = .next (finish u q c.seq { status := 0x0A }))) ∧
    (s.Dispatches q 4 2 c p →
      exec (.grammarEmpty q) s = .next (finish (setGrammar (s.dispatched q c p) p (c.at 0x10 1) none) q c.seq {})) ∧
    (s.Dispatches q 5 0 c p → exec (.fenceQueue q) s = .next (settleWork (start s q c) p)) ∧
    (s.Dispatches q 5 1 c p → exec (.fencePartition q) s = .next (settleWork (start s q c) p)) ∧
    (s.Dispatches q 6 1 c p → exec (.delay q) s = .next (start s q c)) ∧
    (s.Dispatches q 6 2 c p → exec (.deadline q) s = .next (start s q c)) ∧
    (s.cmd q seq = some c →
      (c.cls = 6 → c.phase = .started → (c.op = 1 ∨ c.at 0x10 8 ≤ s.now) → exec (.timerExpiry q seq) s = .next (finish s q seq {})) ∧
      (∀ k n, c.phase = .waiting k n →
        exec (.commandCompletion q seq) s = .next (finishWaiting s (s.queue q).part q c k n)) ∧
      (∀ data next got st, c.phase = .copying data next got st →
        exec (.commandCompletion q seq) s = .next (finishCopy s (s.queue q).part q c data got st) ∧
        (s.serving = true → exec (.commandTimeout q seq) s = .next (failCopy s (s.queue q).part q c 0x05)) ∧
        failCopy s (s.queue q).part q c 0x10 = finish s q c.seq { status := 0x10 }) ∧
      (∀ x page off bs, (s.ctx x).frame page = none → (mapFails s x page).2 = false → allocate (mapFails s x page).1 (s.queue q).part x page = none →
        copyPage s (s.queue q).part x page off bs = ((mapFails s x page).1, 0x10)) ∧
      (s.serving = false → (q.val, seq) ∉ s.fw.expired → exec (.commandTimeout q seq) s =
        .next { s with fw := { s.fw with expired := s.fw.expired ++ [(q.val, seq)] } }) ∧
      (s.serving = true →
        (c.phase = .accepted → exec (.commandTimeout q seq) s = .next (finish s q seq { status := 0x05 })) ∧
        (let met : Prop := (c.cls = 5 ∧ fenceMet s (s.queue q).part q c = true) ∨ (c.cls = 6 ∧ c.op = 2 ∧ c.at 0x10 8 ≤ s.now)
         c.phase = .started → (c.cls = 5 ∨ c.cls = 6) →
          (met → exec (.commandTimeout q seq) s = .next (finish s q seq {})) ∧
          (¬met → exec (.commandTimeout q seq) s = .next (finish s q seq { status := 0x05 }))) ∧
        (c.phase = .started → c.cls = 2 → exec (.commandTimeout q seq) s = .next
          (cancelColls (cancelRows (stopStep s (s.queue q).part [0x05]) (s.queue q).part) (s.queue q).part)) ∧
        (c.phase = .started → (c.cls = 1 ∨ c.cls = 4) → exec (.commandTimeout q seq) s = .next s)))

/-! ## The dictionary -/

/-- R332, R333, R335, R344, R480: a READ is answered with the value, and leaves everything but its snapshot and the count of answers as it was; a
read of CLK_OVERRUN clears it; NEXT names the next object; a SEND in a mailbox performs the request in MB_REQ. Where it rests on a choice of the
model's, entries 63 and 71 of the log say so. -/
def Obligations.ObjectReads : Prop :=
  ∀ (o : Origin) (m : Msg) (r : ObjRow) (n : Fin 4) (s : State),
    (s.Hears o → m.version = 2 → malformed2 m = false → m.session = 0 →
      let answers (i : Instr) (x : Result) (P : State → Prop) : Prop := ∃ t, exec i s = .next t ∧
        t.sent = s.sent ++ [.phophor (asker o 0) (s.getN Obj.comUdpPort 0) (respond m x)] ∧
        (∀ k, k / 256 ≠ 0x1014 → k ≠ objKey Obj.clkOverrun 0 → look (objInit k) t.objs k = look (objInit k) s.objs k) ∧
        t.mem = s.mem ∧ t.cores = s.cores ∧ t.regs = s.regs ∧ P t
      (m.op = 1 → m.offset = 0 → objRow m.index.toNat m.sub.toNat = some r → r.access ≠ .wo →
        let bs := s.readBytes r m.sub.toNat
        let x : Result := .ok (sub bs 0 1024) (decide (bs.length ≤ 1024)) (some bs.length)
        (m.index ≠ 0x2026 → answers (.objectRead o m) x fun t => t.getN Obj.clkOverrun 0 = s.getN Obj.clkOverrun 0) ∧
        (m.index = 0x2026 → answers (.clkOverrun o m) x fun t => t.getN Obj.clkOverrun 0 = 0)) ∧
      (m.op = 3 → answers (.nextObject o m) (serveNext s (fun _ => true) m) fun t =>
        t.getN Obj.clkOverrun 0 = s.getN Obj.clkOverrun 0)) ∧
    (s.hears n 0x400 = true → mailboxHeld s n 0x400 = false →
      let len := s.getR n 0x408
      let m := { parseMsg ((padTo 1280 (s.port n).mbReq).take len) with noFlash := m.noFlash }
      ((8 ≤ len ∧ len ≤ 1048) → exec (.mbCtrlSend n 1 m.noFlash) s = .next (handle (s.setR n 0x404 1) ⟨n.val + 1, 0, 0, 0⟩ m)) ∧
      ((len < 8 ∨ 1048 < len) → ∃ t, exec (.mbCtrlSend n 1 m.noFlash) s = .next t ∧ t.getR n 0x404 = 2 ∧ t.getR n 0x40C = (respond m (.abort 0x0602_0000)).length))

/-- R170, R288, R295, R327, R374, R384, R388, R389, R398, R399, R401, R404, R420, R421, R426, R446, R467, R474, R323, R336: the effect of a legal
write to each object, which is answered where it is not a request for a quote; a write that fails a check is answered by its abort, is counted as
answered and as an abort, and changes no other object, no memory, no core and no register. Emptying slot 0 of the session roots empties every slot
and closes every session. The owner's root is written in a session proven under slot 0, or, while every slot is empty, through a mailbox without a
session. Where it rests on a choice of the model's, entries 64, 66, 69, 70, 99 and 108 of the log say so. -/
def Obligations.ObjectWrites : Prop :=
  ∀ (o : Origin) (m : Msg) (i : Nat) (r : ObjRow) (s : State),
    (s.HearsIn o m 2 i → m.offset = 0 → m.flags = 1 → (s.session i).phase = 2 → topicOf m = .write →
      let bars := writeBarred s ⟨0, some (s.session i).root, true⟩ r m.sub.toNat
      let aborts (e : Nat) : Prop := ∃ t, exec (.objectWrite o m) s = .next t ∧
        t.sent = s.sent ++ [.phophor (asker o (s.session i).id) (s.getN Obj.comUdpPort 0) (respond m (.abort e))] ∧
        (∀ k, k / 256 ≠ 0x1014 → k / 256 ≠ 0x1015 → look (objInit k) t.objs k = look (objInit k) s.objs k) ∧
        t.getN Obj.comRx 0 = (s.getN Obj.comRx 0 + 1) % 2 ^ 64 ∧ t.getN Obj.comAborts 0 = (s.getN Obj.comAborts 0 + 1) % 2 ^ 64 ∧
        t.mem = s.mem ∧ t.cores = s.cores ∧ t.regs = s.regs
      (objRow m.index.toNat m.sub.toNat = none →
        ((∀ x ∈ objRows, x.index ≠ m.index.toNat) → aborts 0x0101_0000) ∧
        ((∃ x ∈ objRows, x.index = m.index.toNat) → aborts 0x0102_0000)) ∧
      (objRow m.index.toNat m.sub.toNat = some r →
        (r.access = .ro → aborts 0x0201_0000) ∧
        (∀ e, bars = some e → aborts e) ∧
        (∀ e, bars = none → valueFails s r m.sub.toNat m.data = some e → aborts e) ∧
        (bars = none → valueFails s r m.sub.toNat m.data = none → m.noFlash = true → persists r = true → aborts 0x0701_0000))) ∧
    (∀ (row : ObjRow) (chan : Nat), objRow Obj.secSessRoot 1 = some row →
      (writeBarred s ⟨chan, none, false⟩ row 1 = none ↔ s.unclaimed = true ∧ 1 ≤ chan ∧ chan ≤ 4) ∧
      (∀ root, writeBarred s ⟨chan, root, true⟩ row 1 = none ↔ root = some 0)) ∧
    (s.Writes o m i r →
    let n := leNat m.data
    let j := m.sub.toNat
    let writes (t : Topic) (c : Instr) (P : State → Prop) : Prop := topicOf m = t → ∃ u, exec c s = .next u ∧
      .phophor (asker o 0) (s.getN Obj.comUdpPort 0) (respond m .done) ∈ u.sent ∧ P u
    writes .write (.objectWrite o m) (fun t => t.obj m.index.toNat j = r.type.decode m.data) ∧
    writes .comUdpPort (.comUdpPort o m) (fun t => t.getN Obj.comUdpPort 0 = n) ∧
    writes .jobEpoch (.jobEpoch o m) (fun t => t.getN Obj.jobEpoch j = n ∧ (s.getN Obj.jobEpoch j ≠ n →
      t.getN Obj.jobWait j = 0 ∧ (t.part (j - 1)).seqNext = [] ∧ (t.part (j - 1)).seqLast = [])) ∧
    writes .jobId (.jobId o m) (fun t => t.getN Obj.jobId j = n) ∧
    writes .jobMap (.jobMap o m) (fun t => t.getB Obj.jobMap j = m.data) ∧
    writes .routePlan (.routePlan o m) (fun t => t.getB Obj.routePlan 0 = m.data) ∧
    writes .memGradeSet (.memGradeSet o m) (fun t =>
      t.getN Obj.memGradeSet 2 = n ∧ (s.getN Obj.memGradeSet 2 ≠ n → t.raising.record = none ∧ t.getN Obj.raiseStored 0 = 0)) ∧
    writes .pwrCap (.pwrCap o m) (fun t => t.getN Obj.pwrCap 0 = n ∧ t.getN Obj.pwrLimit 0 ≤ n) ∧
    writes .clkTimeSet (.clkTimeSet o m) (fun t => t.clock.setTo = some (BitVec.ofNat 64 n)) ∧
    writes .secSessRoot (.secSessRoot o m) (fun t => t.getB Obj.secSessRoot j = m.data ∧
      (s.getB Obj.secSessRoot j ≠ m.data → ∀ k < 8, (t.session k).phase = 2 → (t.session k).root ≠ j - 1) ∧
      (j = 1 → m.data = [] → s.getB Obj.secSessRoot 1 ≠ [] → ∀ k < 8, t.getB Obj.secSessRoot (k + 1) = [] ∧ (t.session k).phase = 0)) ∧
    writes .secImgRevoked (.secImgRevoked o m) (fun t => t.getN Obj.secImgRevoked 0 = s.getN Obj.secImgRevoked 0 ||| n) ∧
    writes .secMoved (.secMoved o m) (fun t => t.getN Obj.secMoved 0 = 0) ∧
    writes .scrClear (.scrClear o m) (fun t => (bit n 0 = true → t.scribe.general = []) ∧
      (∀ c ∈ [2, 3, 4], bit n c = true → look [] t.scribe.first c = [] ∧ look [] t.scribe.last c = []) ∧
      t.scribe.flashFirst = t.scribe.first ∧ t.scribe.flashLast = t.scribe.last) ∧
    writes .confirm (.confirm o m) (fun t => t.updState = 0 ∧ t.getN Obj.fwConfirmedBank 0 = s.fw.candidate ∧
      t.fuses.rollback = max s.fuses.rollback (imgLevel ((s.fw.bank s.fw.candidate).getD []))) ∧
    writes .reject (.reject o m) (fun t => t.updState = 5) ∧
    (s.fw.restarts.length < 3 → writes .fwRestart (.fwRestart o m) fun t => t.fw.busy = true ∧ t.getN Obj.fwRestartWhy 0 = 4) ∧
    writes .fwWarm (.fwWarm o m) (fun t => t.fw.image = .rom ∧ t.getN Obj.fwWarmWhy 0 = 1) ∧
    writes .fwUpdArm (.fwUpdArm o m) (fun t => t.fw.armed = some (s.clock.up, n)) ∧
    writes .fwRecover (.fwRecover o m) (fun t => t.getN Obj.fwRecover 0 = n) ∧
    (topicOf m = .secQuoteReq → ∃ t, exec (.secQuoteReq o m) s = .next t ∧ t.sec.next = s.sec.next + 1 ∧
      ∃ body, t.sec.signing = some (s.sec.next, body, some (asker o (s.session i).id, m))))

/-- R334, R335, R338, R339, R340, R341, R342: sessions open with a fresh identifier and nonce, are proven by a whole proof, close on request, in
idleness and at the end of their validity; lockouts, partial writes and snapshots end. Where it rests on a choice of the model's, entries 66, 67
and 109 of the log say so. -/
def Obligations.Sessions : Prop :=
  ∀ (o : Origin) (m : Msg) (i : Fin 8) (k : Nat) (s : State),
    let x := s.session i
    (s.Hears o → m.version = 2 → m.op = 0x10 → malformed2 m = false → m.session = 0 → x.phase = 0 →
      (∀ j < i.val, (s.session j).phase ≠ 0) →
      ((List.range 8).countP fun j => (s.session j).phase == 1 && (s.session j).chan == 0) < 2 → s.dict.locked = none →
      ∃ t, exec (.sessionOpen o m) s = .next t ∧ (t.session i).phase = 1 ∧ (t.session i).chan = 0 ∧ (t.session i).addr = o.addr ∧
        (t.session i).port = o.port ∧ (t.session i).nonce.length = 32 ∧ (t.session i).id ≠ 0 ∧
        ∀ j < 8, j ≠ i.val → t.session j = s.session j ∧ ((s.session j).phase ≠ 0 → (s.session j).id ≠ (t.session i).id)) ∧
    (∀ y, s.HearsIn o m 0x11 i → m.flags = 1 → m.offset ≠ 0 →
      s.dict.partials.find? (fun p => p.holder == asker o x.id) = some y → y.transaction = m.transaction → y.proof = true →
      y.key = keyOf m → y.total = m.total.toNat → y.bytes.length = m.offset.toNat →
      ∃ t, exec (.sessionProve o m) s = .next t ∧
        (proofValid s x (y.bytes ++ m.data) = true → (t.session i).phase = 2 ∧ (t.session i).root = field (y.bytes ++ m.data) 0 1) ∧
        (proofValid s x (y.bytes ++ m.data) = false → (t.session i).phase = 0 ∧
          t.getN Obj.sessFails 0 = (s.getN Obj.sessFails 0 + 1) % 2 ^ 32)) ∧
    (s.HearsIn o m 0x12 i → ∃ t, exec (.sessionClose o m) s = .next t ∧ (t.session i).phase = 0 ∧
      (∀ y ∈ t.dict.partials, y.holder.session ≠ x.id) ∧ (∀ y ∈ t.dict.snaps, y.holder.session ≠ x.id)) ∧
    (s.serving = true → x.phase ≠ 0 →
      (s.getN Obj.sessIdle 0 * 1_000_000_000 ≤ s.uptime - x.lastAt.toNat → exec (.sessionIdleExpiry i) s = .next (closeSession s i)) ∧
      (s.uptime - x.lastAt.toNat < s.getN Obj.sessIdle 0 * 1_000_000_000 → exec (.sessionIdleExpiry i) s = .next s)) ∧
    (s.serving = true → (x.phase = 1 → exec (.validityEnd i) s = .next (closeSession s i)) ∧
      (x.phase ≠ 1 → exec (.validityEnd i) s = .next s)) ∧
    (∀ t, s.dict.locked = some t →
      (t.toNat + 60_000_000_000 ≤ s.uptime →
        exec .lockoutEnd s = .next { s with dict := { s.dict with locked := none } }) ∧
      (s.uptime < t.toNat + 60_000_000_000 → exec .lockoutEnd s = .next s)) ∧
    exec (.partialWriteExpiry k) s = .next { s with dict := { s.dict with partials := s.dict.partials.eraseIdx k } } ∧
    exec (.snapshotExpiry k) s = .next { s with dict := { s.dict with snaps := s.dict.snaps.eraseIdx k } }

/-- R329, R330, R401, R403: a finished signature is stored as SEC_QUOTE and counted, once a restart that runs is over; a solicitation and an echo
request for an address of the module are answered, and a duplicated second address is given up; a fragment is dropped and counted. Where it rests
on a choice of the model's, entries 68 and 70 of the log say so. -/
def Obligations.QuotesAndNetwork : Prop :=
  ∀ (o : Origin) (a : BitVec 128) (payload : Bytes) (s : State),
    (∀ i body who, s.pins.inReset = false → (s.fw.busy = true ∨ s.fw.hung = true) → s.sec.signing = some (i, body, who) →
      exec .quoteSigned s = .next (if s.sec.signed then s else
        { s with sec := { s.sec with signed := true, lastQuote := some s.clock.up } })) ∧
    (∀ i body who, s.pins.inReset = false → s.fw.busy = false → s.fw.hung = false → s.sec.signing = some (i, body, who) →
      s.sec.signed = false →
      ∃ t, exec .quoteSigned s = .next t ∧ t.sec.signed = false ∧
      t.sec.signing = none ∧ t.getB Obj.secQuote 0 = body ++ padTo 9893 (Config.identitySign i body) ∧
      t.getN Obj.secQuotes 0 = (s.getN Obj.secQuotes 0 + 1) % 2 ^ 64 ∧ t.sec.lastQuote = some s.clock.up) ∧
    (o.service = false → s.mgmtPort = true →
      (o.fragment = true → (∀ d, exec (.neighborDiscovery o a d) s = .next (s.count Obj.comDropped 0 64)) ∧
        exec (.echo o payload) s = .next (s.count Obj.comDropped 0 64)) ∧
      (o.fragment = false →
        ((a = s.firstAddr ∨ (a = s.secondAddr ∧ s.dict.secondGone = false)) →
          exec (.neighborDiscovery o a false) s = .next (s.send (.neighbor o.addr a))) ∧
        (a = s.secondAddr → s.dict.secondGone = false → ∃ t, exec (.neighborDiscovery o a true) s = .next t ∧
          t.dict.secondGone = true) ∧
        (ownAddr s o = true → o.sumOk = true → exec (.echo o payload) s = .next (s.send (.echoReply o.addr payload)))))

/-! ## Updates, raising, firmware -/

/-- R384, R386, R391: the update protocol: a transfer begins, takes its segments in order, is checked at its end and applied, and ends after
silence; a request outside recovery mode and the armed window is answered NOT_ARMED. Where it rests on a choice of the model's, entries 103, 108
and 137 of the log say so. -/
def Obligations.Updates : Prop :=
  ∀ (o : Origin) (m : UpdMsg) (u : Update) (s : State),
    let rows : List (Instr × Byte) := [(.updBegin o m, 1), (.updData o m, 2), (.updEnd o m, 3), (.updStatus o m, 4)]
    let open_ : Prop := s.recovering = true ∨ s.armLeft ≠ 0
    (updHeard s o = true →
      (∀ x ∈ rows, m.op = x.2 → s.recovering = false → s.armLeft = 0 → exec x.1 s = .next (updEndWith s o m 1)) ∧
      (open_ → updForm m = true →
        (m.op = 1 → s.updState ∈ [0, 5] → (m.flags = 1 ↔ s.recovering = true) →
          (64 ≤ m.total.toNat → m.total.toNat ≤ 8 * 2 ^ 20 → ∃ t, exec (.updBegin o m) s = .next t ∧ t.updState = 1 ∧
            t.getN Obj.fwTrials 0 = 0 ∧ t.fw.update = some ⟨o.addr, o.port, m.total.toNat, [], m.flags == 1, s.updState, none⟩ ∧
            t.fw.candidate = s.freeBank ∧ t.fw.bank s.freeBank = none) ∧
          ((m.total.toNat < 64 ∨ 8 * 2 ^ 20 < m.total.toNat) → exec (.updBegin o m) s = .next (updEndWith s o m 4))) ∧
        (s.receiving o = true → s.fw.update = some u →
          (m.op = 2 → m.offset.toNat = u.bytes.length → u.bytes.length + m.data.length ≤ u.total →
            exec (.updData o m) s = .next (updEndWith
              { s with fw := { s.fw with update := some { u with bytes := u.bytes ++ m.data } } } o m 0)) ∧
          (m.op = 2 → m.offset.toNat ≠ u.bytes.length → exec (.updData o m) s = .next (updEndWith s o m 3)) ∧
          (m.op = 3 →
            (u.bytes.length ≠ u.total → exec (.updEnd o m) s = .next (updEndWith (dropUpdate s u.prev) o m 4)) ∧
            (u.bytes.length = u.total →
              let made := if u.full then checkFull s u.bytes
                else buildDelta ((s.fw.bank (s.getN Obj.fwConfirmedBank 0)).getD []) u.bytes
              (∀ st, made = .inl st → exec (.updEnd o m) s = .next (updEndWith (dropUpdate s u.prev) o m st)) ∧
              (∀ bs, made = .inr bs → m.noFlash = true → exec (.updEnd o m) s = .next (updEndWith (dropUpdate s u.prev) o m 10)) ∧
              (∀ bs, made = .inr bs → m.noFlash = false → exec (.updEnd o m) s = .next (updEndWith
                ({ s with fw := { s.fw with update := some { u with apply := some bs } } }.setN Obj.fwUpdState 0 2) o m 0))))) ∧
        (m.op = 4 → exec (.updStatus o m) s = .next (updAnswer s o m (s.updState + 256 * s.fw.lastErr))))) ∧
    (∀ bs, s.updState = 2 → s.fw.update = some u → u.apply = some bs → ∃ t, exec .applyDone s = .next t ∧ t.updState = 3 ∧
      t.fw.bank s.fw.candidate = some bs ∧ t.fw.update = none) ∧
    (s.updState = 1 → s.fw.update = some u → ∃ t, exec .updateSilence s = .next t ∧ t.updState = u.prev ∧
      t.fw.update = none ∧ t.fw.bank s.fw.candidate = none)

/-- R170, R349, R350, R351, R352, R356, R357, R362, R363, R366, R367, R442: each raising command that is performed begins its step or retrain, and the
step its work unless stage 5 keeps it waiting, which begins it once that is left; one of a port that does not own raising, one that another keeps from
running and one out of order are turned away; a step or retrain ends with what the hardware found, LINK_TRAIN not before every link is in IDENT, UP or
failed, and a retrain makes the requests that waited for it; a full core test adds the soft entries of new defects and fails the bays of those that no
unused place can hide. Where it rests on a choice of the model's, entries 57, 91, 92, 93, 112 (MEM_GRADE_RUN takes the grade held as MEM_TRAIN_A's work
began) and 142 of the log say so. -/
def Obligations.Raising : Prop :=
  ∀ (n : Fin 4) (image : Bytes) (r : Report) (s : State),
    let begins (i : Instr) (code : Nat) (run : State → State) : Prop :=
      s.Commands n code → exec i s = .next (run (s.commanded n code))
    begins (.fuseLoad n) 0x11 (beginStep · n 0x11) ∧ begins (.clocks n) 0x12 (beginStep · n 0x12) ∧
    begins (.reduced n) 0x15 (beginStep · n 0x15) ∧ begins (.plumb n) 0x19 (beginStep · n 0x19) ∧
    begins (.ready n) 0x1A (beginStep · n 0x1A) ∧
    begins (.memTrainA n) 0x13 (beginStep · n 0x13) ∧ begins (.memTrainB n) 0x16 (beginStep · n 0x16) ∧
    begins (.linkTrain n) 0x17 (beginStep · n 0x17) ∧
    (∀ code, let waits := s.dark && code != 0x18
      let t := { s with raising := { s.raising with running := some (code, n.val), lastStep := code, stepAt := s.clock.up, waits } }.setR 0 0x20C code
      beginStep s n code = if waits then t else beginWork t code) ∧
    (∀ code m, s.raising.running = some (code, m) → s.raising.waits = true → s.dark = false →
      wakeStep s = beginWork { s with raising := { s.raising with waits := false, stepAt := s.clock.up } } code) ∧
    beginWork s 0x13 = setTrained { s with raising := { s.raising with grade := s.getN Obj.memGradeSet 2 } } (stepChannels 0x13) false ∧
    beginWork s 0x16 = setTrained s (stepChannels 0x16) false ∧
    beginWork s 0x17 = upTo 6 (fun l s => if (s.link l).retrain then s else startTraining s l) s ∧
    (∀ code ∈ [0x01, 0x11, 0x12, 0x14, 0x15, 0x18, 0x19, 0x1A], beginWork s code = s) ∧
    begins (.linkSoak n) 0x18 (fun s =>
      let t := upTo 6 (fun l s => if s.linkState l = 2 then zeroSoak s l else s) (beginStep s n 0x18)
      if (List.range 6).any fun l => t.linkState l == 2 then t else closeStep t n 0x18 none) ∧
    begins (.coreTest n) 0x14 (fun s =>
      let full := s.raising.cold || !s.raising.tested || bit (s.getR 0 0x204) 0
      let t := beginStep { s with raising := { s.raising with full } } n 0x14
      if full = true ∨ t.dark = true then t else endCoreTest t n) ∧
    begins (.retrainChannel n) 0x21 (fun s =>
      { s with raising := { s.raising with retrain := some (0x21, s.getR 0 0x204, n.val) } }) ∧
    begins (.retrainLink n) 0x22 (fun s =>
      let l := s.getR 0 0x204 % 8
      let t := { s with raising := { s.raising with retrain := some (0x22, l, n.val) } }
      startTraining (t.setLink l { t.link l with
        retrain := true, accept := bit (s.getR 0 0x204) 8, attempt := (t.link l).attempt + 1 }) l) ∧
    (s.Commands n 0x01 →
      let bs := padTo (s.getR 0 0x228) image
      let b := beginStep (s.commanded n 0x01) n 0x01
      let t := { b with
        fw := { b.fw with coming := bs }
        raising := { b.raising with lastStep := if s.fw.service = none then 0x01 else s.raising.lastStep } }
      (s.dark = true → exec (.loadFw n image) s = .next t) ∧ (s.dark = false → exec (.loadFw n image) s = .next (finishLoad t n))) ∧
    (let t := { s with fw := { s.fw with held := some s.fw.coming, coming := [] } };
      (∀ f, loadFails t s.fw.coming = some f → finishLoad s n = closeStep t n 0x01 (some f)) ∧
      (loadFails t s.fw.coming = none →
        let u := closeStep (startRuntime t s.fw.coming) n 0x01 none
        (s.fw.service = none → finishLoad s n = settleShore u) ∧ (s.fw.service ≠ none → finishLoad s n = resumeWork u))) ∧
    (∀ x ∈ [(Instr.loadFw n image, 0x01), (.fuseLoad n, 0x11), (.clocks n, 0x12), (.memTrainA n, 0x13), (.coreTest n, 0x14),
        (.reduced n, 0x15), (.memTrainB n, 0x16), (.linkTrain n, 0x17), (.linkSoak n, 0x18), (.plumb n, 0x19), (.ready n, 0x1A),
        (.retrainChannel n, 0x21), (.retrainLink n, 0x22)],
      s.hears n 0x200 = true → s.pins.departed = false →
      let may : Prop := s.getR 0 0x218 = 0xFF ∨ s.raising.orphan = true ∨ s.getR 0 0x218 = n.val
      (¬may → exec x.1 s = .next (turnAway s n 5)) ∧
      (may → s.rsBusy x.2 = true → exec x.1 s = .next (turnAway s n 4)) ∧
      (may → s.rsBusy x.2 = false → s.rsAllowed x.2 = false → exec x.1 s = .next (turnAway s n 3))) ∧
    (s.endsSteps = true → s.pins.departed = false → ∀ code m, r.what = .step → s.raising.running = some (code, m) →
      ((s.dark = false ∨ code = 0x18) → exec (.raisingStepComplete r) s = .next (finishStep (wakeStep s) code m r)) ∧
      (s.dark = true → code ≠ 0x18 → exec (.raisingStepComplete r) s = .next s)) ∧
    (∀ m, let all : Prop := ∀ l < 6, s.linkState l = 2 ∨ s.linkState l = 3 ∨ (s.linkState l ≠ 1 ∧ (s.link l).missed = true)
      (all → finishStep s 0x17 m r = closeStep s m 0x17 none) ∧ (¬all → finishStep s 0x17 m r = s)) ∧
    (finishStep s 0x13 n r).getN Obj.memGradeRun 3 = s.raising.grade ∧
    (∀ m code f, closeRetrainCmd s m code f = replayHeld (reply { s with raising := { s.raising with retrain := none } } m code f)) ∧
    (s.raising.held = [] → replayHeld s = upTo 8 (fun p s => releaseCheck s p) s) ∧
    (∀ h hs, s.raising.held = h :: hs → replayHeld s =
      upTo 8 (fun p s => releaseCheck s p) (hs.foldl replay (replay { s with raising := { s.raising with held := [] } } h))) ∧
    (let t := fullTest s r; (∀ e ∈ t.raising.soft, e ∈ s.raising.soft ∨ e ∈ r.soft) ∧ (∀ e ∈ s.raising.soft, e ∈ t.raising.soft) ∧
      (∀ b ∈ r.failedBays, bit (t.getN Obj.raiseBayPass 0) b.val = false) ∧
      ∀ e ∈ r.soft, s.spareFree e.1 e.2.1.toNat = false → bit (t.getN Obj.raiseBayPass 0) (softBay e.1 e.2.1.toNat) = false) ∧
    (s.serving = true → s.pins.departed = false →
      (∀ u m, r.what = .retrain → s.raising.retrain = some (0x21, u, m) → exec (.raisingStepComplete r) s =
        .next (closeRetrainCmd (endChannel s u r.ok r.retired) m 0x21 (if r.ok then none else some (0x05, u)))) ∧
      (∀ u m, r.what = .retrain → s.raising.retrain = some (0x22, u, m) → s.linkState u ≠ 1 →
        exec (.raisingStepComplete r) s = .next (closeRetrainCmd (finishLink s u).1 m 0x22 (finishLink s u).2)) ∧
      (∀ l : Fin 6, r.what = .link l → (s.link l).retrain = true → (∀ m, s.raising.retrain ≠ some (0x22, l.val, m)) → s.linkState l ≠ 1 →
        exec (.raisingStepComplete r) s = .next (finishLink s l).1))

/-- R347, R368, R374, R375, R376, R377, R378, R379, R380, R381, R389, R395, R403, R412: the causes of a restart of the management core, its end
with a quote, what it interrupted and the writes that waited, the ROM's selection, log rings, bottom trees and hung stations. The runtime resumes where
the held store passes its check and holds the image that ran. Where it rests on a choice of the model's, entries 98, 106 and 176 of the log say so. -/
def Obligations.Firmware : Prop :=
  ∀ (n : Fin 4) (st : Fin 36) (ok a b : Bool) (d : Word) (s : State),
    (∀ x ∈ [(Instr.watchdogExpire, 1), (.mgmtMemoryError, 2), (.consistencyCheckFail, 3)], s.pins.inReset = false →
      (s.fw.image = .runtime ∨ s.fw.image = .boot) →
      (s.fw.restarts.length < 3 → ∃ t, exec x.1 s = .next t ∧ t.fw.busy = true ∧ t.getN Obj.fwRestartWhy 0 = x.2 ∧
        t.getN Obj.fwRestarts 0 = (s.getN Obj.fwRestarts 0 + 1) % 2 ^ 32 ∧ t.dict.sessions = [] ∧ t.mem = s.mem ∧
        t.cores = s.cores ∧ t.queues = s.queues) ∧
      (∀ t u v, s.fw.restarts = [t, u, v] → s.uptime < t.toNat + 60_000_000_000 → exec x.1 s = .next (warmReset s 2))) ∧
    (s.fw.busy = true →
      let clear := { s with fw := { s.fw with busy := false } }
      let c := if s.sec.signed then storeQuote clear else clear
      (s.fw.image = .runtime → s.fw.held = some s.fw.runs → exec (.fwBusyClear true d) s = .next (resumeWork (performQueued (endInterrupted
        (let t := c.note none .imageStart (imgBuild s.fw.runs)
         t.record 0x2010 [t.getN Obj.fwRestartWhy 0, d.toNat]))))) ∧
      (s.fw.image = .runtime → (ok = false ∨ s.fw.held ≠ some s.fw.runs) → exec (.fwBusyClear ok d) s = .next (
        let t := { c with fw := { c.fw with image := .boot, held := none, service := some (c.getR 0 0x214) } }
        let u := serveBoot ((t.setR 0 0x214 0).setN Obj.fwRtVer 0 0) (s.fw.boot.getD [])
        performQueued (endInterrupted (u.record 0x2010 [u.getN Obj.fwRestartWhy 0, d.toNat])))) ∧
      (s.fw.image ≠ .runtime → exec (.fwBusyClear ok d) s = .next (
        let t := serveBoot c (s.fw.boot.getD [])
        performQueued (endInterrupted (t.record 0x2010 [t.getN Obj.fwRestartWhy 0, d.toNat])))) ∧
      (∀ code m, s.raising.running = some (code, m) → s.raising.retrain = none →
        endInterrupted s = upTo 6 (fun l s => trainAgain s l) (closeStep s m code (some (0x0A, 0))))) ∧
    ((∀ m < 4, (s.port m).emu = []) → performQueued s = s) ∧
    (∀ w v, (∀ m < 4, m ≠ n.val → (s.port m).emu = []) → (s.port n).emu = [w, v] → s.fw.busy = false →
      let t := performWrite w (s.setPort n { s.port n with emu := [] })
      t.fw.busy = false → (∀ m < 4, n.val < m → ((performWrite v t).port m).emu = []) → performQueued s = performWrite v t) ∧
    (s.fw.image = .rom → s.fw.starting = none → s.pins.departed = false →
      exec (.romStart a b) s = .next (romSelect s a b) ∧
      (s.getN Obj.fwRecover 0 = 1 → (romSelect s a b).fw.image = .recovery ∧ (romSelect s a b).getN Obj.fwRecover 0 = 0) ∧
      (s.getN Obj.fwRecover 0 ≠ 1 → s.fw.stormBefore = false → s.getN Obj.fwBootFails 0 ≠ 3 → s.updState ∈ [0, 5] →
        romSelect s a b = bootConfirmed s b)) ∧
    (∀ k, s.fw.starting = some k →
      let c := { s with fw := { s.fw with starting := none } }
      (s.updState = 4 → k = s.fw.candidate → exec .bootWatchdog s = .next (candidateFails c 3)) ∧
      ((s.updState ≠ 4 ∨ k ≠ s.fw.candidate) → exec .bootWatchdog s = .next (recover c))) ∧
    (s.fw.began = true → exec .bottomTreeBuilt s = .next { s with sec := { s.sec with treeBuilt := true } }) ∧
    (s.hears n 0x800C = true →
      (s.getR n 0x8000 % 4096 = 0 → (∃ i < 11, s.getR n 0x8008 = 2 ^ (16 + i)) → ∃ t, exec (.lgCtrlStart n) s = .next t ∧
        (t.port n).logging = true ∧ t.getR n 0x8010 = 0 ∧ t.getR n 0x8014 = 0) ∧
      ((s.getR n 0x8000 % 4096 ≠ 0 ∨ ∀ i < 11, s.getR n 0x8008 ≠ 2 ^ (16 + i)) → exec (.lgCtrlStart n) s =
        .next (s.record 0x0051 [n.val, s.getR n 0x8000 % 2 ^ 32, s.getR n 0x8008])) ∧
      exec (.lgCtrlStop n) s = .next (s.setPort n { s.port n with logging := false })) ∧
    (s.serving = true → ∃ t, exec (.fabricProgress st) s = .next t ∧
      t.getN Obj.fwFabHung 0 = setBit (s.getN Obj.fwFabHung 0) st true)

/-! ## Pins, power, cooling -/

/-- R11, R12, R365, R407, R428, R444, R456, R484, R485, R486, R494: what turns the rails off and what is left: flash, with no entry of the Scribe that
was not flushed to it, fuses and the values kept across a cold reset, and no training record; what the latch does; what clears a trip that is held; and a start, which needs WAKE_N, no trip held and every service, and samples the straps and the
latch; a brace input asserted before has ARITH start halved. Where it rests on a choice of the model's, entries 99, 100, 147, 164, 165, 174 and
196 (when a departure flushes) of the log say so. -/
def Obligations.PinsAndPowerOff : Prop :=
  ∀ (x : Straps) (w : Services) (k : Fin 88) (d : Fin 4) (s : State),
    (s.pins.inReset = false →
      exec .resetN s = .next (powerOff s 3) ∧ exec .inputLost s = .next (powerOff s 3) ∧
      exec .prsntNBreak s = .next (powerOff { s with pins := { s.pins with latch := true } } 3) ∧
      exec .latchOpen s = .next (depart { s with pins := { s.pins with latch := false } } 0) ∧
      (∀ e, (diodesOf k)[d.val]? = some e → (s.discarded e = false ∨ s.blind k = true) → exec (.trip k d) s =
        .next (powerOff ({ s with pins := { s.pins with tripHeld := true, trip := some (k.val, d.val) } }.send .tripN) 2))) ∧
    (∀ why, let t := powerOff s why
      t.mem = [] ∧ t.cores = [] ∧ t.ctxs = [] ∧ t.queues = [] ∧ t.fuses = s.fuses ∧ t.pins.inReset = true ∧ t.pins.lastOff = why ∧
      t.fw.bankA = s.fw.bankA ∧ t.fw.bankB = s.fw.bankB ∧ t.scribe.flashFirst = s.scribe.flashFirst ∧
      t.scribe.flashLast = s.scribe.flashLast ∧ t.raising.record = none ∧ t.getN Obj.scrSeqNext 0 = s.getN Obj.scrSeqNext 0 ∧
      t.pins.latch = s.pins.latch ∧ t.pins.wake = s.pins.wake ∧ t.pins.tripHeld = s.pins.tripHeld ∧
      t.getN Obj.memGradeSet 2 = s.fuses.grades ∧ t.getN Obj.pwrLimit 0 = s.fuses.watts ∧
      ∀ (i : Half) (j : Byte) (r : ObjRow), objRow i.toNat j.toNat = some r → ¬(i = 0x5000 ∧ j = 2) → i ≠ 0x6003 →
        t.obj i.toNat j.toNat = if r.cold then s.obj i.toNat j.toNat else r.init) ∧
    (∃ t, exec .wake s = .next t ∧ t.pins.wake = true ∧ t.pins.wakeOff = 0 ∧
      t.pins.tripHeld = (s.pins.tripHeld && decide (s.pins.wakeOff < 10))) ∧
    ((s.pins.inReset = false ∨ (w.wakeOff = 0 ∧ (s.pins.wake = false ∨ s.pins.tripHeld = true ∨ servicesPresent w = false))) →
      exec (.leaveReset ⟨x, w⟩) s = .next s) ∧
    (s.pins.inReset = true → w.wakeOff ≠ 0 → exec (.leaveReset ⟨x, w⟩) s =
      .next { s with pins := { s.pins with wake := false, wakeOff := max s.pins.wakeOff w.wakeOff } }) ∧
    (servicesPresent w = true ↔ w.mated = true ∧ w.released = true ∧ w.input = true ∧ w.coolant = true ∧ w.reference = true ∧ w.wakeOff = 0) ∧
    (s.pins.inReset = true → s.pins.wake = true → s.pins.tripHeld = false → servicesPresent w = true → ∃ t, exec (.leaveReset ⟨x, w⟩) s = .next t ∧
      t.pins.inReset = false ∧ t.pins.straps = x ∧ t.pins.latch = w.latch ∧ t.fw.image = .rom ∧
      t.getN Obj.devStraps 0 = x.coord.toNat + 2 ^ 8 * x.node.toNat + 2 ^ 12 * x.bifurcation.toNat ∧
      (∀ n < 4, t.getN Obj.hostQmax (n + 1) = 4096 / max 1 t.portCount) ∧ t.getN Obj.memGradeSet 2 = s.fuses.grades ∧
      t.getN Obj.pwrLimit 0 = s.fuses.watts ∧ t.getN Obj.pwrBrace 0 = (if s.power.braceHalf then 1 else 0)) ∧
    (s.pins.inReset = true → s.power.braceIn = false → ∃ t, exec .braceAssert s = .next t ∧ t.power.braceHalf = true ∧ t.sent = s.sent)

/-- R435, R436, R440, R444, R445, R447, R448, R457, R471: the shedding stages, overvoltage, the power control loop and the braces; ARITH's gate is at
most what the limits allow, never below the floor of 32, and PWR_ARITH follows it; while a brace or stage 3 or above holds ARITH, the firmware lowers its
limit toward the power limit and does not raise it. PWR_IN and PWR_VIN report what was measured. Where it rests on a
choice of the model's, entries 10, 90, 100 (an overvoltage departs with cause 1), 101 (PWR_CAP_UNMET clears when power is back within the limit), 144
and 201 (power is taken to grow with ARITH) of the log say so. -/
def Obligations.PowerAndBraces : Prop :=
  ∀ (n : Fin 7) (mv mw : Nat) (s : State), s.pins.inReset = false →
    let gate := s.getN Obj.clkGateM 0
    let v := s.setRatio Obj.pwrVin 0 mv 1000
    let pin := (fp32Ratio mw 1000).toNat
    (32 ≤ s.arithTarget ∧ s.arithTarget ≤ 256 ∧ (settleArith s).getN Obj.clkGateM 0 = min gate s.arithTarget ∧
      (settleArith s).getN Obj.pwrArith 0 = s.fuses.arith * min gate s.arithTarget / 256) ∧
    (s.stage < n.val → mv < stageEnter n →
      let t := (s.record 0x3010 [s.stage, n.val, mv]).setRatio Obj.pwrVin 0 mv 1000
      (n.val = 6 → exec (.stageTaken n mv) s = .next (powerOff (flushScribe (depart t 1)) 1)) ∧
      (n.val ≠ 6 → exec (.stageTaken n mv) s = .next (settleStage (t.setN Obj.pwrStage 0 n.val)))) ∧
    (n.val ≠ 0 → n.val = s.stage → stageExit n ≤ mv → exec (.stageLeft n mv) s = .next (settleStage
      (((s.record 0x3010 [s.stage, n.val - 1, mv]).setRatio Obj.pwrVin 0 mv 1000).setN Obj.pwrStage 0 (n.val - 1)))) ∧
    ((63_000 < mv → exec (.overvoltage ⟨true, mv⟩) s = .next (powerOff (flushScribe (depart v 1)) 4)) ∧
      (60_000 < mv → exec (.overvoltage ⟨false, mv⟩) s = .next (settleShore { v with power := { v.power with overvolt := true } })) ∧
      (mv ≤ 63_000 → exec (.overvoltage ⟨true, mv⟩) s = .next s) ∧ (mv ≤ 60_000 → exec (.overvoltage ⟨false, mv⟩) s = .next s) ∧
      ∃ low ≤ 59_000, let w := s.setRatio Obj.pwrVin 0 low 1000
        exec .overvoltageClear s = .next (settleShore { w with free := s.free + 1, power := { w.power with overvolt := false } })) ∧
    (s.serving = true → ∃ t, exec (.powerControl ⟨mw, mv⟩) s = .next t ∧ t.getN Obj.pwrVin 0 = v.getN Obj.pwrVin 0 ∧ t.getN Obj.pwrIn 0 = pin ∧
      t.power.powerM = (if s.power.braceHalf = true ∨ s.power.braceOver = true ∨ 3 ≤ s.stage then
          (if 1000 * s.getN Obj.pwrLimit 0 * gate < mw * s.unheldM then max 32 (s.power.powerM - 16) else s.power.powerM)
        else if 1000 * s.getN Obj.pwrLimit 0 < mw then max 32 (s.power.powerM - 16)
        else if mw < 1000 * s.getN Obj.pwrLimit 0 then min 256 (s.power.powerM + 16) else s.power.powerM) ∧
      t.getN Obj.pwrCapUnmet 0 = (if 1000 * s.getN Obj.pwrLimit 0 < mw ∧ gate ≤ 32 then 1 else 0) ∧
      t.getN Obj.clkGateM 0 ≤ gate + 16) ∧
    (s.power.braceIn = false → ∃ t, exec .braceAssert s = .next t ∧ t.power.braceIn = true ∧ t.power.braceHalf = true ∧
      t.power.braceAt = s.clock.up ∧ t.getN Obj.pwrBraces 0 = (s.getN Obj.pwrBraces 0 + 1) % 2 ^ 32 ∧
      t.getN Obj.clkGateM 0 = min gate (max 32 (max 32 s.arithMin / 2))) ∧
    (s.power.braceIn = true → ∃ t, exec .braceRelease s = .next t ∧ t.power.braceIn = false ∧
      t.power.braceHalf = decide (s.uptime < s.power.braceAt.toNat + 1_000_000)) ∧
    (s.power.braceIn = false → ∃ t, exec .braceMinimumHoldEnd s = .next t ∧ t.power.braceHalf = false) ∧
    (∃ t, exec .overcurrent s = .next t ∧ t.power.braceOver = true ∧
      (∃ high : Nat, 1200 * s.fuses.watts < high ∧ t.getN Obj.pwrIn 0 = (fp32Ratio high 1000).toNat) ∧
      t.getN Obj.clkGateM 0 = min gate (max 32 (max 32 s.arithMin / 2))) ∧
    (s.power.braceOver = true →
      (mw ≤ 1000 * s.fuses.watts → ∃ t, exec (.overcurrentRelease mw) s = .next t ∧ t.power.braceOver = false ∧ t.getN Obj.pwrIn 0 = pin) ∧
      (1000 * s.fuses.watts < mw → exec (.overcurrentRelease mw) s = .next s))

/-- R449, R450, R451, R452, R453, R454, R455, R478, R488: the sensor interface, the counts found overrun with it, the firmware's flow request, the
limits and shoring for flow and inlet, the coolant brace, and the thermal samples. Where it rests on a choice of the model's, entries 61, 101, 146
and 167 of the log say so. -/
def Obligations.CoolingAndTemperature : Prop :=
  ∀ (r : Sensors) (mean mw a b mk : Nat) (x : Bool) (w : Fin 3) (k : Fin 88) (ds : List (Nat × Int)) (ps : List Int) (s : State),
    s.pins.inReset = false →
    ((∃ v, r.flow = some v ∧ v.msb = false ∧ isMean mean ((v.toNat :: s.power.flows).take 100) = false) → exec (.sensorRead r mean) s = .next s) ∧
    (∀ vs, isMean mean vs = true ↔ mean * vs.length < vs.sum + vs.length ∧ vs.sum < mean * vs.length + vs.length) ∧
    ((∀ v, r.flow = some v → v.msb = false → isMean mean ((v.toNat :: s.power.flows).take 100) = true) →
      ∃ t, exec (.sensorRead r mean) s = .next t ∧ t.getN Obj.clkOverrun 0 = (s.getN Obj.clkOverrun 0 ||| r.overruns.toNat * 64) ∧
      (∀ v, r.inlet = some v → t.power.inlet = v.toInt) ∧ (r.inlet = none → t.power.inlet = s.power.inlet) ∧
      (∀ v, r.outlet = some v → t.power.outlet = v.toInt) ∧
      (∀ v, r.flow = some v → v.msb = false → t.power.flow = mean ∧ t.power.flows = (v.toNat :: s.power.flows).take 100) ∧
      ((∀ v, r.flow = some v → v.msb = true) → t.power.flow = s.power.flow ∧ t.power.flows = s.power.flows) ∧
      t.power.flowOn = (s.power.flowOn && decide (t.power.flow < 1050)) ∧
      t.power.inletOn = (s.power.inletOn && decide (5120 < t.power.inlet))) ∧
    (w = 0 → ∃ t, exec (.sensorSilent w) s = .next t ∧ t.power.inlet = 5120 ∧ t.power.inletOn = false) ∧
    (w ≠ 0 → exec (.sensorSilent w) s = .next (coolantStop s false)) ∧
    exec (.coolantStop x) s = .next (coolantStop s x) ∧
    (s.power.flow < (if x then 1050 else 1200) → exec (.flowLow x) s = .next (
      if x then settleCool { s with power := { s.power with flowOn := true } } else s.record 0x4010 [s.power.flow])) ∧
    ((if x then 5760 else 5120) < s.power.inlet → exec (.inletHigh x) s = .next (
      if x then settleShore { s with power := { s.power with coolInlet := true } }
      else settleCool { s with power := { s.power with inletOn := true } })) ∧
    (s.power.inlet < 5504 → exec .inletClear s = .next (settleShore { s with power := { s.power with coolInlet := false } })) ∧
    (1200 ≤ s.power.flow → exec .coolantRecover s = .next (settleShore (settleArith (settleCool
      { s with power := { s.power with coolBrace := false, coolStop := false } })))) ∧
    (s.serving = true →
      (s.fuses.watts ≠ 0 → ∃ t, exec (.flowForecast mw) s = .next t ∧ t.getN Obj.coolForecast 0 = mw / 1000 ∧
        t.getN Obj.coolFlowReq 0 = (fp32Ratio
          (3 * max (4 * (4000 * s.fuses.watts) / 5) (min (4000 * s.fuses.watts) (5 * mw)) : Nat) (2 * (4000 * s.fuses.watts))).toNat) ∧
      (∀ h, let t := upTo 88 (fun k s => match s.reading k with
            | some r => if k < 64 then s.setRatio Obj.thermBay (k + 1) r 1000 else s.setRatio Obj.thermMc (k - 63) r 1000
            | none => s) (ds.foldl (fun s (d, r) => takeReading s d r) s)
        hottest (((List.range 88).filterMap fun k => (t.reading k).map (· - t.limit k)) ++ ps.map (· - 95_000)) = some h →
        ∃ u, exec (.thermalSample ds ps) s = .next u ∧
          (0 < h → u.power.thermalM = max 32 (s.power.thermalM - 64) ∧ u.power.coolFor = 0) ∧
          (-2_000 < h → h ≤ 0 → u.power.thermalM = s.power.thermalM ∧ u.power.coolFor = 0) ∧
          (h ≤ -2_000 → u.power.coolFor = s.power.coolFor + 1 ∧
            u.power.thermalM = if 9 ≤ s.power.coolFor then min 256 (s.power.thermalM + 64) else s.power.thermalM)) ∧
      (∀ d e, s.degraded k = false → a ≠ b → (diodesOf k)[a]? = some d → (diodesOf k)[b]? = some e → s.discarded d = false →
        s.discarded e = false →
        (4_000 < mk → ∃ t, exec (.sensorDisagree k a b mk) s = .next t ∧
          t.getB Obj.thermDegraded 0 = leBytes 11 (setBit (leNat (s.getB Obj.thermDegraded 0)) k true)) ∧
        (mk ≤ 4_000 → exec (.sensorDisagree k a b mk) s = .next s)))

/-! ## The Scribe and the clocks -/

/-- R430, R460, R461, R462, R463, R464, R466, R470, R474, R475, R476: an event of a privileged channel that has a token takes the next sequence
and the last place of its last area, or within one CTRL cycle the place that the order of the codes gives it; one of the general channel takes the
last place of its area, and a full area refuses and counts it, or the greater code of its cycle that took the last place; marks, refills, changes of
the rate and flushes; the reference, second marks and crossings. Where it rests on a choice of the model's, entries 8 (which events share a CTRL
cycle), 11 (which event a full area refuses), 102 and 145 of the log say so. -/
def Obligations.ScribeAndClocks : Prop :=
  ∀ (code : Nat) (args : List Nat) (h : Half) (s : State),
    (0x1000 ≤ code → (unlimited code = true ∨ s.tokens code ≠ 0) →
      let t := s.record code args
      t.getN Obj.scrSeqNext 0 = (s.getN Obj.scrSeqNext 0 + 1) % 2 ^ 32 ∧
      ((s.scribe.cycle ≠ s.clock.up ∨ s.scribe.posted = []) → ∃ e : Event, (look [] t.scribe.last (code / 0x1000)).getLast? = some e ∧
        e.seq = BitVec.ofNat 32 (s.getN Obj.scrSeqNext 0) ∧ e.code = BitVec.ofNat 16 code ∧ e.args = args.map (BitVec.ofNat 32) ∧
        e.stamp = BitVec.ofNat 32 (s.now / 1000)) ∧
      (∀ c, s.scribe.cycle = s.clock.up → s.scribe.posted = [c] → c ≤ code → ∃ e : Event,
        (look [] t.scribe.last (code / 0x1000)).getLast? = some e ∧ e.seq = BitVec.ofNat 32 (s.getN Obj.scrSeqNext 0) ∧ e.code = BitVec.ofNat 16 code) ∧
      (∀ c f, s.scribe.cycle = s.clock.up → s.scribe.posted = [c] → code < c → (look [] s.scribe.last (code / 0x1000)) = [f] →
        f.seq = BitVec.ofNat 32 (s.getN Obj.scrSeqNext 0) - 1 → ∃ e : Event,
          e.code = BitVec.ofNat 16 code ∧
          if Config.sameCycle s.clock.up (s.getN Obj.scrSeqNext 0) then
            look [] t.scribe.last (code / 0x1000) = [e, { f with seq := BitVec.ofNat 32 (s.getN Obj.scrSeqNext 0) }] ∧ e.seq = f.seq
          else look [] t.scribe.last (code / 0x1000) = [f, e] ∧ e.seq = BitVec.ofNat 32 (s.getN Obj.scrSeqNext 0)) ∧
      ((look [] s.scribe.last (code / 0x1000)).length ≤ 1024 → (look [] t.scribe.last (code / 0x1000)).length ≤ 1024) ∧
      ((s.scribe.cycle ≠ s.clock.up ∨ s.scribe.posted = []) → t.scribe.general = s.scribe.general)) ∧
    (code < 0x1000 → s.tokens code ≠ 0 →
      let t := s.record code args
      let alone : Prop := s.scribe.cycle ≠ s.clock.up ∨ s.scribe.posted = []
      (s.scribe.general.length < 4096 → alone → t.getN Obj.scrSeqNext 0 = (s.getN Obj.scrSeqNext 0 + 1) % 2 ^ 32 ∧
        t.getN Obj.scrGenLost 0 = s.getN Obj.scrGenLost 0 ∧ ∃ e : Event, t.scribe.general = s.scribe.general ++ [e] ∧
          e.seq = BitVec.ofNat 32 (s.getN Obj.scrSeqNext 0) ∧ e.code = BitVec.ofNat 16 code ∧ e.args = args.map (BitVec.ofNat 32)) ∧
      (4096 ≤ s.scribe.general.length → t.getN Obj.scrGenLost 0 = (s.getN Obj.scrGenLost 0 + 1) % 2 ^ 32 ∧
        (alone → t.scribe.general = s.scribe.general ∧ t.getN Obj.scrSeqNext 0 = s.getN Obj.scrSeqNext 0) ∧
        (∀ g, s.scribe.cycle = s.clock.up → s.scribe.posted = [g.code.toNat] → s.scribe.general.getLast? = some g → code < g.code.toNat →
          g.seq = BitVec.ofNat 32 (s.getN Obj.scrSeqNext 0) - 1 →
          if Config.sameCycle s.clock.up (s.getN Obj.scrSeqNext 0) then
            ∃ e : Event, t.scribe.general = s.scribe.general.dropLast ++ [e] ∧ e.seq = g.seq ∧ e.code = BitVec.ofNat 16 code ∧
              t.getN Obj.scrSeqNext 0 = s.getN Obj.scrSeqNext 0 % 2 ^ 32
          else t.scribe.general = s.scribe.general ∧ t.getN Obj.scrSeqNext 0 = s.getN Obj.scrSeqNext 0))) ∧
    (unlimited code = false → s.tokens code = 0 →
      (s.record code args).getN Obj.scrSuppressed 0 = (s.getN Obj.scrSuppressed 0 + 1) % 2 ^ 64 ∧
      (s.record code args).scribe.last = s.scribe.last ∧ (s.record code args).scribe.general = s.scribe.general) ∧
    exec .stampMark s = .next (if s.pins.inReset then s else
      [0x1001, 0x2001, 0x3001, 0x4001].foldl (fun s c => s.record c (twoWords s.now)) s) ∧
    (∃ t, exec (.tokenRefill h) s = .next t ∧ t.tokens h.toNat = min (s.rate h.toNat) (s.tokens h.toNat + 1) ∧
      ∀ k, k ≠ h.toNat → t.tokens k = s.tokens k) ∧
    (∀ base ovr, (∀ k, look none s.scribe.tokens code = some k → (rateChanged s base ovr).tokens code = min k (s.rate code)) ∧
      (look none s.scribe.tokens code = none → (rateChanged s base ovr).tokens code ≤ min (rateBy base ovr code) (s.rate code))) ∧
    (s.pins.inReset = true → exec .scribeFlush s = .next s) ∧
    (s.pins.inReset = false → ∃ t, exec .scribeFlush s = .next t ∧ t.scribe.flashFirst = s.scribe.first ∧
      t.scribe.flashLast = s.scribe.last ∧ t.pins.departAt = none ∧
      t.scribe.flashSeq = (if s.scribe.first = s.scribe.flashFirst ∧ s.scribe.last = s.scribe.flashLast then s.scribe.flashSeq
        else BitVec.ofNat 32 (s.getN Obj.scrSeqNext 0))) ∧
    (s.pins.inReset = false →
      (∃ t, exec .referenceLoss s = .next t ∧ t.getN Obj.clkTimeOk 0 = 0 ∧
        t.getN Obj.clkRef 0 = (if s.getN Obj.clkRef 0 = 0 then 1 else s.getN Obj.clkRef 0)) ∧
      (∀ v, s.clock.setTo = some v → ∃ t, exec .secondMark s = .next t ∧ t.clock.time = v ∧ t.clock.setTo = none ∧
        t.getN Obj.clkTimeOk 0 = 1) ∧
      (s.clock.setTo = none → s.clock.loaded = true →
        (onMark s = true → exec .secondMark s = .next s) ∧
        (onMark s = false → ∃ t, exec .secondMark s = .next t ∧ t.getN Obj.clkTimeOk 0 = 0)) ∧
      (s.clock.loaded = true → ∃ t, exec .markMissing s = .next t ∧ t.getN Obj.clkTimeOk 0 = 0) ∧
      (∀ f, ∃ t, exec (.crossingTimeout f) s = .next t ∧ t.getN Obj.clkXingTo 0 = (s.getN Obj.clkXingTo 0 + 1) % 2 ^ 32 ∧
        t.mem = s.mem ∧ t.cores = s.cores) ∧
      exec (.crossingTimeout false) s = .next ((s.count Obj.clkXingTo 0).send (.crossed (some 0x05))) ∧
      exec (.crossingTimeout true) s = .next (((s.count Obj.clkXingTo 0).send (.crossed none)).note none .crossing [])) ∧
    (s.getN Obj.clkRef 0 = 1 → ∃ t, exec .referenceReturn s = .next t ∧ t.getN Obj.clkRef 0 = 0)

/-! ## The whole machine -/

/-- A step with a command at the front of the queue is that command's effect with the rest of the queue. With no command waiting it is a cycle of
TICK: rack time and the time since the start advance by 10 ns out of reset, and the firmware may trace, which changes the counts of the log rings that
run and sends entries. A departure that began 3 ms ago has then flushed the Scribe, and a FENCE reset that has waited for 10 ms waits for no request any
more (R415, R428); nothing else changes (the model's choices, log 8, 46, 107 and 196). -/
def Obligations.StepRunsFront : Prop :=
  (∀ (c : Instr) (rest : List Instr) (s : State), s.pending = c :: rest → step s = exec c { s with pending := rest }) ∧
  ∀ s : State, s.pending = [] → ∃ t, step s = .next (endEdges (endDeparture t)) ∧
    (s.pins.departAt = none → endDeparture t = t) ∧
    (∀ a, s.pins.departAt = some a → let u := endDeparture t
      (t.uptime < a.toNat + 3_000_000 → u = t) ∧
      (a.toNat + 3_000_000 ≤ t.uptime → u.pins.departAt = none ∧ u.scribe.flashFirst = s.scribe.first ∧
        u.scribe.flashLast = s.scribe.last ∧ u.scribe.first = s.scribe.first)) ∧
    (let u := endDeparture t
     let late (p : Nat) : Prop := s.pstate p = 5 ∧ (s.part p).edgeWait = true ∧ (s.part p).resetAt.toNat + 10_000_000 ≤ t.uptime
     ((s.serving = false ∨ ∀ p < 8, ¬late p) → endEdges u = u) ∧
      (s.serving = true → ∀ p < 8, late p → ∀ r ∈ (endEdges u).net.requests, r.part ≠ p)) ∧
    t = { s with clock := { s.clock with time := t.clock.time, up := t.clock.up }, regs := t.regs, sent := t.sent, free := t.free } ∧
    (s.traced = false → t.regs = s.regs ∧ t.sent = s.sent ∧ t.free = s.free) ∧
    (∀ (n : Fin 4) (off : Half), (off ≠ 0x8010 ∧ off ≠ 0x8018) ∨ (s.port n).logging = false → t.getR n off.toNat = s.getR n off.toNat) ∧
    (s.pins.inReset = false → t.clock.time = s.clock.time + 10 ∧ t.clock.up = s.clock.up + 10) ∧
    (s.pins.inReset = true → t = s)

/-- R11, R94, R116, R407: after reset every object and register holds its Default, the fused grade and power where that is it, or the value that
the model chose where the spec gives none (entry 1 of the log); main memory and every scratchpad read zero in their canonical form, every core is
off and its slots are EMPTY, and no context, queue, request or collective exists. -/
def Obligations.ResetState : Prop :=
  (∀ (i : Half) (j : Byte) (r : ObjRow), objRow i.toNat j.toNat = some r → ¬(i = 0x5000 ∧ j = 2) → i ≠ 0x6003 →
    State.reset.obj i.toNat j.toNat = r.init) ∧
  State.reset.getN Obj.memGradeSet 2 = State.reset.fuses.grades ∧ State.reset.getN Obj.pwrLimit 0 = State.reset.fuses.watts ∧
  (∀ (n : Fin 4) (off : Nat) (r : RegRow), regRow off = some r → State.reset.getR n off = r.init) ∧
  (∀ a, byteAt State.reset.mem a = 0) ∧ State.reset.MemoryCanonical ∧ State.reset.WithinLimits ∧
  (∀ c, (State.reset.core c).run = .off ∧ (∀ a, byteAt (State.reset.core c).scratch a = 0) ∧
    (State.reset.core c).slot0.fill = .empty ∧ (State.reset.core c).slot1.fill = .empty) ∧
  (∀ x, (State.reset.ctx x).state = .free) ∧ (∀ q, (State.reset.queue q).port = none) ∧ (∀ i, State.reset.coll i = none) ∧
  State.reset.net.requests = [] ∧ State.reset.pending = []

/-- R84, R88, R90, R236: every step from a state in which no core's loop stack, tensor queue or transfers and no bay's requests are beyond their
sizes answers one in which that holds; `ResetState` says that it holds after reset. -/
def Obligations.LimitsKept : Prop :=
  ∀ s : State, s.WithinLimits → ∃ t, step s = .next t ∧ t.WithinLimits

/-- Every step from a state with main memory in its canonical form answers a next state with it, so that equal memories are equal data (the
model's own invariant). -/
def Obligations.MemoryStaysCanonical : Prop :=
  ∀ s : State, s.MemoryCanonical → ∃ t, step s = .next t ∧ t.MemoryCanonical
end

