-- ==== Sys2Proof/Laws/Dispatch.lean ====
section
/-! SUPPORT. Which meaning each command runs. -/

namespace Sys2Proof.Machine

theorem exec_add (s : State) c f : exec (.add c f) s = execAdd c f s := rfl
theorem exec_sub (s : State) c f : exec (.sub c f) s = execSub c f s := rfl
theorem exec_and (s : State) c f : exec (.and c f) s = execAnd c f s := rfl
theorem exec_or (s : State) c f : exec (.or c f) s = execOr c f s := rfl
theorem exec_xor (s : State) c f : exec (.xor c f) s = execXor c f s := rfl
theorem exec_shl (s : State) c f : exec (.shl c f) s = execShl c f s := rfl
theorem exec_shr (s : State) c f : exec (.shr c f) s = execShr c f s := rfl
theorem exec_sar (s : State) c f : exec (.sar c f) s = execSar c f s := rfl
theorem exec_mul (s : State) c f : exec (.mul c f) s = execMul c f s := rfl
theorem exec_mulh (s : State) c f : exec (.mulh c f) s = execMulh c f s := rfl
theorem exec_setp (s : State) c f : exec (.setp c f) s = execSetp c f s := rfl
theorem exec_plog (s : State) c f : exec (.plog c f) s = execPlog c f s := rfl
theorem exec_li (s : State) c f : exec (.li c f) s = execLi c f s := rfl
theorem exec_sel (s : State) c f : exec (.sel c f) s = execSel c f s := rfl
theorem exec_min (s : State) c f : exec (.min c f) s = execMin c f s := rfl
theorem exec_max (s : State) c f : exec (.max c f) s = execMax c f s := rfl
theorem exec_ldw (s : State) c f : exec (.ldw c f) s = execLdw c f s := rfl
theorem exec_ldh (s : State) c f : exec (.ldh c f) s = execLdh c f s := rfl
theorem exec_ldb (s : State) c f : exec (.ldb c f) s = execLdb c f s := rfl
theorem exec_stw (s : State) c f : exec (.stw c f) s = execStw c f s := rfl
theorem exec_sth (s : State) c f : exec (.sth c f) s = execSth c f s := rfl
theorem exec_stb (s : State) c f : exec (.stb c f) s = execStb c f s := rfl
theorem exec_br (s : State) c f : exec (.br c f) s = execBr c f s := rfl
theorem exec_bri (s : State) c f : exec (.bri c f) s = execBri c f s := rfl
theorem exec_loop (s : State) c f : exec (.loop c f) s = execLoop c f s := rfl
theorem exec_brk (s : State) c f : exec (.brk c f) s = execBrk c f s := rfl
theorem exec_vadd (s : State) c f : exec (.vadd c f) s = execVadd c f s := rfl
theorem exec_vsub (s : State) c f : exec (.vsub c f) s = execVsub c f s := rfl
theorem exec_vmul (s : State) c f : exec (.vmul c f) s = execVmul c f s := rfl
theorem exec_vfma (s : State) c f : exec (.vfma c f) s = execVfma c f s := rfl
theorem exec_vmin (s : State) c f : exec (.vmin c f) s = execVmin c f s := rfl
theorem exec_vmax (s : State) c f : exec (.vmax c f) s = execVmax c f s := rfl
theorem exec_vand (s : State) c f : exec (.vand c f) s = execVand c f s := rfl
theorem exec_vor (s : State) c f : exec (.vor c f) s = execVor c f s := rfl
theorem exec_vxor (s : State) c f : exec (.vxor c f) s = execVxor c f s := rfl
theorem exec_vshl (s : State) c f : exec (.vshl c f) s = execVshl c f s := rfl
theorem exec_vshr (s : State) c f : exec (.vshr c f) s = execVshr c f s := rfl
theorem exec_vcmp (s : State) c f : exec (.vcmp c f) s = execVcmp c f s := rfl
theorem exec_vsel (s : State) c f : exec (.vsel c f) s = execVsel c f s := rfl
theorem exec_vcvt (s : State) c f : exec (.vcvt c f) s = execVcvt c f s := rfl
theorem exec_vred (s : State) c f : exec (.vred c f) s = execVred c f s := rfl
theorem exec_vperm (s : State) c f : exec (.vperm c f) s = execVperm c f s := rfl
theorem exec_vld (s : State) c f : exec (.vld c f) s = execVld c f s := rfl
theorem exec_vst (s : State) c f : exec (.vst c f) s = execVst c f s := rfl
theorem exec_vldx (s : State) c f : exec (.vldx c f) s = execVldx c f s := rfl
theorem exec_vstx (s : State) c f : exec (.vstx c f) s = execVstx c f s := rfl
theorem exec_vins (s : State) c f : exec (.vins c f) s = execVins c f s := rfl
theorem exec_vext (s : State) c f : exec (.vext c f) s = execVext c f s := rfl
theorem exec_vbcst (s : State) c f : exec (.vbcst c f) s = execVbcst c f s := rfl
theorem exec_vnl (s : State) c f : exec (.vnl c f) s = execVnl c f s := rfl
theorem exec_vflr (s : State) c f : exec (.vflr c f) s = execVflr c f s := rfl
theorem exec_vfrac (s : State) c f : exec (.vfrac c f) s = execVfrac c f s := rfl
theorem exec_vldexp (s : State) c f : exec (.vldexp c f) s = execVldexp c f s := rfl
theorem exec_tmma (s : State) c f : exec (.tmma c f) s = execTmma c f s := rfl
theorem exec_tmmac (s : State) c f : exec (.tmmac c f) s = execTmmac c f s := rfl
theorem exec_tclr (s : State) c f : exec (.tclr c f) s = execTclr c f s := rfl
theorem exec_tjoin (s : State) c f : exec (.tjoin c f) s = execTjoin c f s := rfl
theorem exec_drain (s : State) c f : exec (.drain c f) s = execDrain c f s := rfl
theorem exec_exportTile (s : State) c f : exec (.exportTile c f) s = execExportTile c f s := rfl
theorem exec_tensorQueueEntry (s : State) c : exec (.tensorQueueEntry c) s = execTensorQueueEntry c s := rfl
theorem exec_swait (s : State) c f : exec (.swait c f) s = execSwait c f s := rfl
theorem exec_srel (s : State) c f : exec (.srel c f) s = execSrel c f s := rfl
theorem exec_movd (s : State) c f : exec (.movd c f) s = execMovd c f s := rfl
theorem exec_barb (s : State) c f : exec (.barb c f) s = execBarb c f s := rfl
theorem exec_bard (s : State) c f : exec (.bard c f) s = execBard c f s := rfl
theorem exec_waitf (s : State) c f : exec (.waitf c f) s = execWaitf c f s := rfl
theorem exec_tsync (s : State) c f : exec (.tsync c f) s = execTsync c f s := rfl
theorem exec_mwait (s : State) c f : exec (.mwait c f) s = execMwait c f s := rfl
theorem exec_tcoll (s : State) c f : exec (.tcoll c f) s = execTcoll c f s := rfl
theorem exec_lsend (s : State) c f : exec (.lsend c f) s = execLsend c f s := rfl
theorem exec_nop (s : State) c f : exec (.nop c f) s = execNop c f s := rfl
theorem exec_mfs (s : State) c f : exec (.mfs c f) s = execMfs c f s := rfl
theorem exec_halt (s : State) c f : exec (.halt c f) s = execHalt c f s := rfl
theorem exec_trap (s : State) c f : exec (.trap c f) s = execTrap c f s := rfl
theorem exec_dieBarrierToken (s : State) b : exec (.dieBarrierToken b) s = execDieBarrierToken b s := rfl
theorem exec_dieBarrierRelease (s : State) b : exec (.dieBarrierRelease b) s = execDieBarrierRelease b s := rfl
theorem exec_transferStart (s : State) c id : exec (.transferStart c id) s = execTransferStart c id s := rfl
theorem exec_transferComplete (s : State) c id : exec (.transferComplete c id) s = execTransferComplete c id s := rfl
theorem exec_faultReport (s : State) b : exec (.faultReport b) s = execFaultReport b s := rfl
theorem exec_stopConfirmationTimeout (s : State) p : exec (.stopConfirmationTimeout p) s = execStopConfirmationTimeout p s := rfl
theorem exec_stepLoad (s : State) b : exec (.stepLoad b) s = execStepLoad b s := rfl
theorem exec_startToken (s : State) p : exec (.startToken p) s = execStartToken p s := rfl
theorem exec_stepComplete (s : State) p : exec (.stepComplete p) s = execStepComplete p s := rfl
theorem exec_streamRead (s : State) n k : exec (.streamRead n k) s = execStreamRead n k s := rfl
theorem exec_streamFlit (s : State) b : exec (.streamFlit b) s = execStreamFlit b s := rfl
theorem exec_fillWrite (s : State) b r : exec (.fillWrite b r) s = execFillWrite b r s := rfl
theorem exec_stageCreditReturn (s : State) b stream : exec (.stageCreditReturn b stream) s = execStageCreditReturn b stream s := rfl
theorem exec_descriptorFetch (s : State) b r : exec (.descriptorFetch b r) s = execDescriptorFetch b r s := rfl
theorem exec_controllerRequest (s : State) n q e : exec (.controllerRequest n q e) s = execControllerRequest n q e s := rfl
theorem exec_patrol (s : State) n addr e : exec (.patrol n addr e) s = execPatrol n addr e s := rfl
theorem exec_allocationRequest (s : State) p x page : exec (.allocationRequest p x page) s = execAllocationRequest p x page s := rfl
theorem exec_refill (s : State) b p page first second : exec (.refill b p page first second) s = execRefill b p page first second s := rfl
theorem exec_scrubDone (s : State) n : exec (.scrubDone n) s = execScrubDone n s := rfl
theorem exec_sliceDescriptor (s : State) u : exec (.sliceDescriptor u) s = execSliceDescriptor u s := rfl
theorem exec_engineLoaded (s : State) u x record grammar : exec (.engineLoaded u x record grammar) s = execEngineLoaded u x record grammar s := rfl
theorem exec_rowComplete (s : State) u x : exec (.rowComplete u x) s = execRowComplete u x s := rfl
theorem exec_admission (s : State) p : exec (.admission p) s = execAdmission p s := rfl
theorem exec_creditRegrant (s : State) k peer : exec (.creditRegrant k peer) s = execCreditRegrant k peer s := rfl
theorem exec_chunkSend (s : State) k dest : exec (.chunkSend k dest) s = execChunkSend k dest s := rfl
theorem exec_fold (s : State) k : exec (.fold k) s = execFold k s := rfl
theorem exec_chunkTimeout (s : State) k dest chunk : exec (.chunkTimeout k dest chunk) s = execChunkTimeout k dest chunk s := rfl
theorem exec_receiveTimeout (s : State) k peer : exec (.receiveTimeout k peer) s = execReceiveTimeout k peer s := rfl
theorem exec_laneLockTimeout (s : State) l : exec (.laneLockTimeout l) s = execLaneLockTimeout l s := rfl
theorem exec_codeword (s : State) l w : exec (.codeword l w) s = execCodeword l w s := rfl
theorem exec_read (s : State) l h : exec (.read l h) s = execRead l h s := rfl
theorem exec_write (s : State) l h data : exec (.write l h data) s = execWrite l h data s := rfl
theorem exec_readReply (s : State) l h data : exec (.readReply l h data) s = execReadReply l h data s := rfl
theorem exec_writeReply (s : State) l h : exec (.writeReply l h) s = execWriteReply l h s := rfl
theorem exec_chunk (s : State) l h data : exec (.chunk l h data) s = execChunk l h data s := rfl
theorem exec_chunkAck (s : State) l h : exec (.chunkAck l h) s = execChunkAck l h s := rfl
theorem exec_chunkCredit (s : State) l h : exec (.chunkCredit l h) s = execChunkCredit l h s := rfl
theorem exec_chunkCount (s : State) l h : exec (.chunkCount l h) s = execChunkCount l h s := rfl
theorem exec_idle (s : State) l : exec (.idle l) s = execIdle l s := rfl
theorem exec_ident (s : State) l k : exec (.ident l k) s = execIdent l k s := rfl
theorem exec_credit (s : State) l freed : exec (.credit l freed) s = execCredit l freed s := rfl
theorem exec_audit (s : State) l sent : exec (.audit l sent) s = execAudit l sent s := rfl
theorem exec_depart (s : State) l serial : exec (.depart l serial) s = execDepart l serial s := rfl
theorem exec_creditSend (s : State) l : exec (.creditSend l) s = execCreditSend l s := rfl
theorem exec_auditSend (s : State) l : exec (.auditSend l) s = execAuditSend l s := rfl
theorem exec_identSend (s : State) l : exec (.identSend l) s = execIdentSend l s := rfl
theorem exec_linkTransmit (s : State) l vc : exec (.linkTransmit l vc) s = execLinkTransmit l vc s := rfl
theorem exec_remoteRequest (s : State) forCopy unit id : exec (.remoteRequest forCopy unit id) s = execRemoteRequest forCopy unit id s := rfl
theorem exec_replySend (s : State) k : exec (.replySend k) s = execReplySend k s := rfl
theorem exec_requestTimeout (s : State) tag : exec (.requestTimeout tag) s = execRequestTimeout tag s := rfl
theorem exec_tagQuarantineEnd (s : State) tag : exec (.tagQuarantineEnd tag) s = execTagQuarantineEnd tag s := rfl
theorem exec_laneLockLost (s : State) l : exec (.laneLockLost l) s = execLaneLockLost l s := rfl
theorem exec_berWindow (s : State) l errors bits overrun : exec (.berWindow l errors bits overrun) s = execBerWindow l errors bits overrun s := rfl
theorem exec_linkSilence (s : State) l : exec (.linkSilence l) s = execLinkSilence l s := rfl
theorem exec_linkRetrainAttempt (s : State) l : exec (.linkRetrainAttempt l) s = execLinkRetrainAttempt l s := rfl
theorem exec_functionLevelReset (s : State) n : exec (.functionLevelReset n) s = execFunctionLevelReset n s := rfl
theorem exec_hotReset (s : State) n : exec (.hotReset n) s = execHotReset n s := rfl
theorem exec_pcieLinkDown (s : State) n : exec (.pcieLinkDown n) s = execPcieLinkDown n s := rfl
theorem exec_busMasterEnableClear (s : State) n : exec (.busMasterEnableClear n) s = execBusMasterEnableClear n s := rfl
theorem exec_perst (s : State) n : exec (.perst n) s = execPerst n s := rfl
theorem exec_bar4Read (s : State) n offset len : exec (.bar4Read n offset len) s = execBar4Read n offset len s := rfl
theorem exec_bar4Write (s : State) n offset data : exec (.bar4Write n offset data) s = execBar4Write n offset data s := rfl
theorem exec_emuLate (s : State) n stuck : exec (.emuLate n stuck) s = execEmuLate n stuck s := rfl
theorem exec_registerWrite (s : State) n offset value : exec (.registerWrite n offset value) s = execRegisterWrite n offset value s := rfl
theorem exec_hpTimeLo (s : State) n : exec (.hpTimeLo n) s = execHpTimeLo n s := rfl
theorem exec_hpHeartbeat (s : State) n value : exec (.hpHeartbeat n value) s = execHpHeartbeat n value s := rfl
theorem exec_attach (s : State) n : exec (.attach n) s = execAttach n s := rfl
theorem exec_detach (s : State) n : exec (.detach n) s = execDetach n s := rfl
theorem exec_heartbeatTimeout (s : State) n : exec (.heartbeatTimeout n) s = execHeartbeatTimeout n s := rfl
theorem exec_holdExpire (s : State) n : exec (.holdExpire n) s = execHoldExpire n s := rfl
theorem exec_raise (s : State) n : exec (.raise n) s = execRaise n s := rfl
theorem exec_formation (s : State) p : exec (.formation p) s = execFormation p s := rfl
theorem exec_reset (s : State) n : exec (.reset n) s = execReset n s := rfl
theorem exec_resetDone (s : State) p : exec (.resetDone p) s = execResetDone p s := rfl
theorem exec_shore (s : State) n : exec (.shore n) s = execShore n s := rfl
theorem exec_unshore (s : State) n : exec (.unshore n) s = execUnshore n s := rfl
theorem exec_remove (s : State) n : exec (.remove n) s = execRemove n s := rfl
theorem exec_create (s : State) n : exec (.create n) s = execCreate n s := rfl
theorem exec_delete (s : State) n : exec (.delete n) s = execDelete n s := rfl
theorem exec_query (s : State) n : exec (.query n) s = execQuery n s := rfl
theorem exec_dbSqTail (s : State) n q value entries : exec (.dbSqTail n q value entries) s = execDbSqTail n q value entries s := rfl
theorem exec_dbCqHead (s : State) n q value : exec (.dbCqHead n q value) s = execDbCqHead n q value s := rfl
theorem exec_step (s : State) q : exec (.step q) s = execStep q s := rfl
theorem exec_openCtx (s : State) q : exec (.openCtx q) s = execOpenCtx q s := rfl
theorem exec_bind (s : State) q : exec (.bind q) s = execBind q s := rfl
theorem exec_resume (s : State) q : exec (.resume q) s = execResume q s := rfl
theorem exec_park (s : State) q : exec (.park q) s = execPark q s := rfl
theorem exec_close (s : State) q : exec (.close q) s = execClose q s := rfl
theorem exec_setParams (s : State) q : exec (.setParams q) s = execSetParams q s := rfl
theorem exec_copy (s : State) q hostData : exec (.copy q hostData) s = execCopy q hostData s := rfl
theorem exec_grammarLoad (s : State) q : exec (.grammarLoad q) s = execGrammarLoad q s := rfl
theorem exec_grammarEmpty (s : State) q : exec (.grammarEmpty q) s = execGrammarEmpty q s := rfl
theorem exec_fenceQueue (s : State) q : exec (.fenceQueue q) s = execFenceQueue q s := rfl
theorem exec_fencePartition (s : State) q : exec (.fencePartition q) s = execFencePartition q s := rfl
theorem exec_delay (s : State) q : exec (.delay q) s = execDelay q s := rfl
theorem exec_deadline (s : State) q : exec (.deadline q) s = execDeadline q s := rfl
theorem exec_timerExpiry (s : State) q seq : exec (.timerExpiry q seq) s = execTimerExpiry q seq s := rfl
theorem exec_commandCompletion (s : State) q seq : exec (.commandCompletion q seq) s = execCommandCompletion q seq s := rfl
theorem exec_commandTimeout (s : State) q seq : exec (.commandTimeout q seq) s = execCommandTimeout q seq s := rfl
theorem exec_objectRead (s : State) o m : exec (.objectRead o m) s = execObjectRead o m s := rfl
theorem exec_objectWrite (s : State) o m : exec (.objectWrite o m) s = execObjectWrite o m s := rfl
theorem exec_nextObject (s : State) o m : exec (.nextObject o m) s = execNextObject o m s := rfl
theorem exec_sessionOpen (s : State) o m : exec (.sessionOpen o m) s = execSessionOpen o m s := rfl
theorem exec_sessionProve (s : State) o m : exec (.sessionProve o m) s = execSessionProve o m s := rfl
theorem exec_sessionClose (s : State) o m : exec (.sessionClose o m) s = execSessionClose o m s := rfl
theorem exec_sessionIdleExpiry (s : State) k : exec (.sessionIdleExpiry k) s = execSessionIdleExpiry k s := rfl
theorem exec_validityEnd (s : State) k : exec (.validityEnd k) s = execValidityEnd k s := rfl
theorem exec_lockoutEnd (s : State) : exec .lockoutEnd s = execLockoutEnd s := rfl
theorem exec_partialWriteExpiry (s : State) k : exec (.partialWriteExpiry k) s = execPartialWriteExpiry k s := rfl
theorem exec_snapshotExpiry (s : State) k : exec (.snapshotExpiry k) s = execSnapshotExpiry k s := rfl
theorem exec_mbCtrlSend (s : State) n value noFlash : exec (.mbCtrlSend n value noFlash) s = execMbCtrlSend n value noFlash s := rfl
theorem exec_neighborDiscovery (s : State) o target duplicate : exec (.neighborDiscovery o target duplicate) s = execNeighborDiscovery o target duplicate s := rfl
theorem exec_echo (s : State) o payload : exec (.echo o payload) s = execEcho o payload s := rfl
theorem exec_comUdpPort (s : State) o m : exec (.comUdpPort o m) s = execComUdpPort o m s := rfl
theorem exec_jobEpoch (s : State) o m : exec (.jobEpoch o m) s = execJobEpoch o m s := rfl
theorem exec_jobId (s : State) o m : exec (.jobId o m) s = execJobId o m s := rfl
theorem exec_jobMap (s : State) o m : exec (.jobMap o m) s = execJobMap o m s := rfl
theorem exec_routePlan (s : State) o m : exec (.routePlan o m) s = execRoutePlan o m s := rfl
theorem exec_memGradeSet (s : State) o m : exec (.memGradeSet o m) s = execMemGradeSet o m s := rfl
theorem exec_pwrCap (s : State) o m : exec (.pwrCap o m) s = execPwrCap o m s := rfl
theorem exec_clkTimeSet (s : State) o m : exec (.clkTimeSet o m) s = execClkTimeSet o m s := rfl
theorem exec_clkOverrun (s : State) o m : exec (.clkOverrun o m) s = execClkOverrun o m s := rfl
theorem exec_secQuoteReq (s : State) o m : exec (.secQuoteReq o m) s = execSecQuoteReq o m s := rfl
theorem exec_quoteSigned (s : State) : exec .quoteSigned s = execQuoteSigned s := rfl
theorem exec_secSessRoot (s : State) o m : exec (.secSessRoot o m) s = execSecSessRoot o m s := rfl
theorem exec_secImgRevoked (s : State) o m : exec (.secImgRevoked o m) s = execSecImgRevoked o m s := rfl
theorem exec_secMoved (s : State) o m : exec (.secMoved o m) s = execSecMoved o m s := rfl
theorem exec_scrClear (s : State) o m : exec (.scrClear o m) s = execScrClear o m s := rfl
theorem exec_confirm (s : State) o m : exec (.confirm o m) s = execConfirm o m s := rfl
theorem exec_reject (s : State) o m : exec (.reject o m) s = execReject o m s := rfl
theorem exec_fwRestart (s : State) o m : exec (.fwRestart o m) s = execFwRestart o m s := rfl
theorem exec_fwWarm (s : State) o m : exec (.fwWarm o m) s = execFwWarm o m s := rfl
theorem exec_fwUpdArm (s : State) o m : exec (.fwUpdArm o m) s = execFwUpdArm o m s := rfl
theorem exec_fwRecover (s : State) o m : exec (.fwRecover o m) s = execFwRecover o m s := rfl
theorem exec_updBegin (s : State) o m : exec (.updBegin o m) s = execUpdBegin o m s := rfl
theorem exec_updData (s : State) o m : exec (.updData o m) s = execUpdData o m s := rfl
theorem exec_updEnd (s : State) o m : exec (.updEnd o m) s = execUpdEnd o m s := rfl
theorem exec_updStatus (s : State) o m : exec (.updStatus o m) s = execUpdStatus o m s := rfl
theorem exec_applyDone (s : State) : exec .applyDone s = execApplyDone s := rfl
theorem exec_updateSilence (s : State) : exec .updateSilence s = execUpdateSilence s := rfl
theorem exec_loadFw (s : State) n image : exec (.loadFw n image) s = execLoadFw n image s := rfl
theorem exec_fuseLoad (s : State) n : exec (.fuseLoad n) s = execFuseLoad n s := rfl
theorem exec_clocks (s : State) n : exec (.clocks n) s = execClocks n s := rfl
theorem exec_memTrainA (s : State) n : exec (.memTrainA n) s = execMemTrainA n s := rfl
theorem exec_coreTest (s : State) n : exec (.coreTest n) s = execCoreTest n s := rfl
theorem exec_reduced (s : State) n : exec (.reduced n) s = execReduced n s := rfl
theorem exec_memTrainB (s : State) n : exec (.memTrainB n) s = execMemTrainB n s := rfl
theorem exec_linkTrain (s : State) n : exec (.linkTrain n) s = execLinkTrain n s := rfl
theorem exec_linkSoak (s : State) n : exec (.linkSoak n) s = execLinkSoak n s := rfl
theorem exec_plumb (s : State) n : exec (.plumb n) s = execPlumb n s := rfl
theorem exec_ready (s : State) n : exec (.ready n) s = execReady n s := rfl
theorem exec_retrainChannel (s : State) n : exec (.retrainChannel n) s = execRetrainChannel n s := rfl
theorem exec_retrainLink (s : State) n : exec (.retrainLink n) s = execRetrainLink n s := rfl
theorem exec_raisingStepComplete (s : State) r : exec (.raisingStepComplete r) s = execRaisingStepComplete r s := rfl
theorem exec_lgCtrlStart (s : State) n : exec (.lgCtrlStart n) s = execLgCtrlStart n s := rfl
theorem exec_lgCtrlStop (s : State) n : exec (.lgCtrlStop n) s = execLgCtrlStop n s := rfl
theorem exec_watchdogExpire (s : State) : exec .watchdogExpire s = execWatchdogExpire s := rfl
theorem exec_mgmtMemoryError (s : State) : exec .mgmtMemoryError s = execMgmtMemoryError s := rfl
theorem exec_fwBusyClear (s : State) heldOk duration : exec (.fwBusyClear heldOk duration) s = execFwBusyClear heldOk duration s := rfl
theorem exec_romStart (s : State) candidateServes confirmedServes : exec (.romStart candidateServes confirmedServes) s = execRomStart candidateServes confirmedServes s := rfl
theorem exec_bootWatchdog (s : State) : exec .bootWatchdog s = execBootWatchdog s := rfl
theorem exec_fabricProgress (s : State) station : exec (.fabricProgress station) s = execFabricProgress station s := rfl
theorem exec_latchOpen (s : State) : exec .latchOpen s = execLatchOpen s := rfl
theorem exec_wake (s : State) : exec .wake s = execWake s := rfl
theorem exec_leaveReset (s : State) w : exec (.leaveReset w) s = execLeaveReset w s := rfl
theorem exec_resetN (s : State) : exec .resetN s = execResetN s := rfl
theorem exec_prsntNBreak (s : State) : exec .prsntNBreak s = execPrsntNBreak s := rfl
theorem exec_stageTaken (s : State) n millivolts : exec (.stageTaken n millivolts) s = execStageTaken n millivolts s := rfl
theorem exec_stageLeft (s : State) n millivolts : exec (.stageLeft n millivolts) s = execStageLeft n millivolts s := rfl
theorem exec_overvoltage (s : State) v : exec (.overvoltage v) s = execOvervoltage v s := rfl
theorem exec_inputLost (s : State) : exec .inputLost s = execInputLost s := rfl
theorem exec_powerControl (s : State) v : exec (.powerControl v) s = execPowerControl v s := rfl
theorem exec_braceAssert (s : State) : exec .braceAssert s = execBraceAssert s := rfl
theorem exec_braceRelease (s : State) : exec .braceRelease s = execBraceRelease s := rfl
theorem exec_overcurrent (s : State) : exec .overcurrent s = execOvercurrent s := rfl
theorem exec_overcurrentRelease (s : State) milliwatts : exec (.overcurrentRelease milliwatts) s = execOvercurrentRelease milliwatts s := rfl
theorem exec_sensorRead (s : State) r meanFlow : exec (.sensorRead r meanFlow) s = execSensorRead r meanFlow s := rfl
theorem exec_sensorSilent (s : State) which : exec (.sensorSilent which) s = execSensorSilent which s := rfl
theorem exec_flowForecast (s : State) milliwatts : exec (.flowForecast milliwatts) s = execFlowForecast milliwatts s := rfl
theorem exec_flowLow (s : State) derate : exec (.flowLow derate) s = execFlowLow derate s := rfl
theorem exec_inletHigh (s : State) shoreAll : exec (.inletHigh shoreAll) s = execInletHigh shoreAll s := rfl
theorem exec_inletClear (s : State) : exec .inletClear s = execInletClear s := rfl
theorem exec_coolantStop (s : State) outletRise : exec (.coolantStop outletRise) s = execCoolantStop outletRise s := rfl
theorem exec_coolantRecover (s : State) : exec .coolantRecover s = execCoolantRecover s := rfl
theorem exec_thermalSample (s : State) diodes packages : exec (.thermalSample diodes packages) s = execThermalSample diodes packages s := rfl
theorem exec_sensorDisagree (s : State) spot first second millikelvin : exec (.sensorDisagree spot first second millikelvin) s = execSensorDisagree spot first second millikelvin s := rfl
theorem exec_trip (s : State) spot diode : exec (.trip spot diode) s = execTrip spot diode s := rfl
theorem exec_tokenRefill (s : State) code : exec (.tokenRefill code) s = execTokenRefill code s := rfl
theorem exec_stampMark (s : State) : exec .stampMark s = execStampMark s := rfl
theorem exec_scribeFlush (s : State) : exec .scribeFlush s = execScribeFlush s := rfl
theorem exec_referenceLoss (s : State) : exec .referenceLoss s = execReferenceLoss s := rfl
theorem exec_referenceReturn (s : State) : exec .referenceReturn s = execReferenceReturn s := rfl
theorem exec_secondMark (s : State) : exec .secondMark s = execSecondMark s := rfl
theorem exec_markMissing (s : State) : exec .markMissing s = execMarkMissing s := rfl
theorem exec_crossingTimeout (s : State) firmware : exec (.crossingTimeout firmware) s = execCrossingTimeout firmware s := rfl
theorem exec_lanesLocked (s : State) l t2 : exec (.lanesLocked l t2) s = execLanesLocked l t2 s := rfl
theorem exec_consistencyCheckFail (s : State) : exec .consistencyCheckFail s = execConsistencyCheckFail s := rfl
theorem exec_overvoltageClear (s : State) : exec .overvoltageClear s = execOvervoltageClear s := rfl
theorem exec_braceMinimumHoldEnd (s : State) : exec .braceMinimumHoldEnd s = execBraceMinimumHoldEnd s := rfl
theorem exec_bottomTreeBuilt (s : State) : exec .bottomTreeBuilt s = execBottomTreeBuilt s := rfl

end Sys2Proof.Machine
end

