-- ==== Sys2Proof/Laws/Maps.lean ====
section
/-! SUPPORT. Maps: what is read after a write, and that every operation on a map keeps its canonical form. -/

namespace Sys2Proof.Machine

variable {α : Type}

@[simp] theorem look_nil (d : α) (i : Nat) : look d [] i = d := rfl

theorem look_append_right (d : α) (m m' : Map α) (i : Nat) (h : ∀ e ∈ m, e.1 ≠ i) :
    look d (m ++ m') i = look d m' i := by
  induction m with
  | nil => rfl
  | cons e m ih =>
    simp only [List.cons_append, look, h e (.head _), if_false]
    exact ih fun a ha => h a (.tail _ ha)

theorem look_absent (d : α) (m : Map α) (i : Nat) (h : ∀ e ∈ m, e.1 ≠ i) : look d m i = d := by
  simpa using look_append_right d m [] i h

theorem look_append_left (d : α) (m m' : Map α) (i : Nat) (h : ∀ e ∈ m', e.1 ≠ i) :
    look d (m ++ m') i = look d m i := by
  induction m with
  | nil => exact look_absent d m' i h
  | cons e m ih => simp only [List.cons_append, look, ih]

theorem look_filter (d : α) (m : Map α) (p : Nat → Bool) (i : Nat) :
    look d (m.filter fun e => p e.1) i = if p i then look d m i else d := by
  induction m with
  | nil => simp
  | cons e m ih =>
    obtain ⟨k, v⟩ := e
    by_cases hp : p k
    · by_cases hk : k = i
      · subst hk; simp [hp, look]
      · simp [hp, look, hk, ih]
    · by_cases hk : k = i
      · subst hk; simp [hp, ih]
      · simp [hp, look, hk, ih]

variable [DecidableEq α]

theorem entries_keys (d : α) (xs : List α) : ∀ (i : Nat), ∀ e ∈ entries d i xs, i ≤ e.1 ∧ e.1 < i + xs.length := by
  induction xs with
  | nil => simp [entries]
  | cons x xs ih =>
    intro i e he
    simp only [entries] at he
    split at he
    · have := ih _ _ he; simp; omega
    · rcases List.mem_cons.1 he with rfl | he
      · simp
      · have := ih _ _ he; simp; omega

theorem look_entries (d : α) (xs : List α) : ∀ (i j : Nat),
    look d (entries d i xs) j = if i ≤ j then xs.getD (j - i) d else d := by
  induction xs with
  | nil => simp [entries]
  | cons x xs ih =>
    intro i j
    have h1 : ∀ n, n ≠ 0 → (x :: xs).getD n d = xs.getD (n - 1) d := by
      intro n hn; obtain ⟨k, rfl⟩ := Nat.exists_eq_succ_of_ne_zero hn; simp
    simp only [entries]
    by_cases hx : x = d
    · simp only [hx, if_true, ih]
      by_cases hj : j = i
      · subst hj; simp
      · by_cases hij : i ≤ j
        · have h3 : i + 1 ≤ j := by omega
          simp only [hij, h3, if_true]
          have h4 : j - (i + 1) = j - i - 1 := by omega
          have h5 := h1 (j - i) (by omega)
          simp only [hx] at h5
          rw [h4, h5]
        · have h3 : ¬i + 1 ≤ j := by omega
          simp [hij, h3]
    · simp only [hx, if_false, look, ih]
      by_cases hj : j = i
      · subst hj; simp
      · have hj' : ¬i = j := fun h => hj h.symm
        by_cases hij : i ≤ j
        · have h3 : i + 1 ≤ j := by omega
          simp only [hij, h3, hj', if_true, if_false]
          rw [h1 _ (by omega)]; congr 1
        · have h3 : ¬i + 1 ≤ j := by omega
          simp [hij, h3, hj']

omit [DecidableEq α] in
theorem look_below (d : α) (m : Map α) (i j : Nat) :
    look d (m.filter fun e => decide (e.1 < i)) j = if j < i then look d m j else d := by
  simpa using look_filter d m (fun k => decide (k < i)) j

omit [DecidableEq α] in
theorem look_above (d : α) (m : Map α) (i j : Nat) :
    look d (m.filter fun e => decide (i ≤ e.1)) j = if i ≤ j then look d m j else d := by
  simpa using look_filter d m (fun k => decide (i ≤ k)) j

/-- What a map holds after values were written: the values where they were written, and elsewhere what it held. -/
theorem look_blit (d : α) (m : Map α) (i : Nat) (xs : List α) (j : Nat) :
    look d (blit d m i xs) j = if i ≤ j ∧ j < i + xs.length then xs.getD (j - i) d else look d m j := by
  have keys := entries_keys d xs i
  unfold blit
  by_cases h1 : j < i
  · rw [look_append_left, look_append_left, look_below, if_pos h1, if_neg (by omega)]
    · intro e he; have := keys e he; omega
    · intro e he; simp at he; omega
  · by_cases h2 : j < i + xs.length
    · rw [look_append_left, look_append_right, look_entries, if_pos (by omega), if_pos ⟨by omega, h2⟩]
      · intro e he; simp at he; omega
      · intro e he; simp at he; omega
    · rw [look_append_right, look_above, if_pos (by omega), if_neg (by omega)]
      intro e he
      rcases List.mem_append.1 he with he | he
      · simp at he; omega
      · have := keys e he; omega

/-- A read after a write: the written value at its index, and elsewhere what was there. -/
theorem look_put (d : α) (m : Map α) (i j : Nat) (x : α) :
    look d (put d m i x) j = if j = i then x else look d m j := by
  unfold put
  rw [look_blit]
  by_cases h : j = i
  · subst h; simp
  · have : ¬(i ≤ j ∧ j < i + [x].length) := by simp; omega
    rw [if_neg this, if_neg h]

@[simp] theorem look_put_same (d : α) (m : Map α) (i : Nat) (x : α) : look d (put d m i x) i = x := by
  simp [look_put]

theorem look_put_other (d : α) (m : Map α) {i j : Nat} (x : α) (h : j ≠ i) : look d (put d m i x) j = look d m j := by
  simp [look_put, h]

/-- A write leaves every other index as it was, whatever an unlisted index holds there. -/
theorem look_put_ne (d d' : α) (m : Map α) (i j : Nat) (x : α) (h : j ≠ i) : look d (put d' m i x) j = look d m j := by
  have keys := entries_keys d' [x] i
  simp only [List.length_singleton] at keys
  unfold put blit
  by_cases h1 : j < i
  · rw [look_append_left, look_append_left, look_below, if_pos h1]
    · intro e he; have := keys e he; omega
    · intro e he; simp at he; omega
  · rw [look_append_right, look_above, if_pos (by simp; omega)]
    intro e he
    rcases List.mem_append.1 he with he | he
    · simp at he; omega
    · have := keys e he; omega

omit [DecidableEq α] in
theorem look_wipe (d : α) (m : Map α) (i n j : Nat) :
    look d (wipe m i n) j = if i ≤ j ∧ j < i + n then d else look d m j := by
  have := look_filter d m (fun k => decide (k < i) || decide (i + n ≤ k)) j
  unfold wipe
  by_cases h : i ≤ j ∧ j < i + n
  · rw [if_pos h]; rw [if_neg (by simp; omega)] at this; exact this
  · rw [if_neg h]; rw [if_pos (by simp; omega)] at this; exact this

/-! ## Canonical form -/

theorem canonFrom_iff (d : α) (m : Map α) : ∀ lo, canonFrom d lo m = true ↔
    (∀ e ∈ m, lo ≤ e.1 ∧ e.2 ≠ d) ∧ m.Pairwise fun e e' => e.1 < e'.1 := by
  induction m with
  | nil => simp [canonFrom]
  | cons e m ih =>
    obtain ⟨k, v⟩ := e
    intro lo
    simp only [canonFrom, Bool.and_eq_true, decide_eq_true_eq, ih, List.mem_cons, List.pairwise_cons, forall_eq_or_imp]
    constructor
    · rintro ⟨⟨h1, h2⟩, h3, h4⟩
      exact ⟨⟨⟨h1, h2⟩, fun e he => ⟨by have := (h3 e he).1; omega, (h3 e he).2⟩⟩,
        fun e he => by have := (h3 e he).1; show k < e.1; omega, h4⟩
    · rintro ⟨⟨⟨h1, h2⟩, h3⟩, h4, h5⟩
      exact ⟨⟨h1, h2⟩, fun e he => ⟨h4 e he, (h3 e he).2⟩, h5⟩

theorem canonFrom_filter (d : α) (m : Map α) (p : Nat × α → Bool) (lo : Nat) (h : canonFrom d lo m = true) :
    canonFrom d lo (m.filter p) = true := by
  rw [canonFrom_iff] at *
  exact ⟨fun e he => h.1 e (List.mem_of_mem_filter he), h.2.filter p⟩

theorem entries_values (d : α) (xs : List α) : ∀ (i : Nat), ∀ e ∈ entries d i xs, e.2 ≠ d := by
  induction xs with
  | nil => simp [entries]
  | cons x xs ih =>
    intro i e he
    simp only [entries] at he
    split at he
    · exact ih _ _ he
    · rcases List.mem_cons.1 he with rfl | he
      · assumption
      · exact ih _ _ he

theorem entries_rise (d : α) (xs : List α) : ∀ (i : Nat), (entries d i xs).Pairwise fun e e' => e.1 < e'.1 := by
  induction xs with
  | nil => simp [entries]
  | cons x xs ih =>
    intro i
    simp only [entries]
    split
    · exact ih _
    · refine List.Pairwise.cons (fun e he => ?_) (ih _)
      have := entries_keys d xs _ e he; show i < e.1; omega

/-- Writing values keeps the canonical form. -/
theorem canonFrom_blit (d : α) (m : Map α) (i : Nat) (xs : List α) (h : canonFrom d 0 m = true) :
    canonFrom d 0 (blit d m i xs) = true := by
  rw [canonFrom_iff] at *
  unfold blit
  refine ⟨fun e he => ⟨Nat.zero_le _, ?_⟩, ?_⟩
  · rcases List.mem_append.1 he with he | he
    · rcases List.mem_append.1 he with he | he
      · exact (h.1 e (List.mem_of_mem_filter he)).2
      · exact entries_values d xs i e he
    · exact (h.1 e (List.mem_of_mem_filter he)).2
  · rw [List.pairwise_append, List.pairwise_append]
    refine ⟨⟨h.2.filter _, entries_rise d xs i, ?_⟩, h.2.filter _, ?_⟩
    · intro a ha b hb
      have := entries_keys d xs i b hb; simp at ha; omega
    · intro a ha b hb
      rcases List.mem_append.1 ha with ha | ha
      · simp at ha hb; omega
      · have := entries_keys d xs i a ha; simp at hb; omega

theorem canonFrom_put (d : α) (m : Map α) (i : Nat) (x : α) (h : canonFrom d 0 m = true) :
    canonFrom d 0 (put d m i x) = true := canonFrom_blit d m i [x] h

theorem canonFrom_wipe (d : α) (m : Map α) (i n : Nat) (h : canonFrom d 0 m = true) :
    canonFrom d 0 (wipe m i n) = true := canonFrom_filter d m _ 0 h

/-! ## Memories -/

/-- Writing bytes keeps a memory's canonical form. -/
theorem Memory.wf_writeBytes (m : List Host.Cell) (a : Nat) (bs : Bytes) (h : Memory.wf m = true) :
    Memory.wf (writeBytes m a bs) = true := canonFrom_blit 0 m a bs h

/-- Writing a number keeps a memory's canonical form. -/
theorem Memory.wf_writeNum (m : List Host.Cell) (a n v : Nat) (h : Memory.wf m = true) :
    Memory.wf (writeNum m a n v) = true := Memory.wf_writeBytes m a _ h

/-- Clearing bytes keeps a memory's canonical form. -/
theorem Memory.wf_wipe (m : List Host.Cell) (a n : Nat) (h : Memory.wf m = true) :
    Memory.wf (wipe m a n) = true := canonFrom_wipe 0 m a n h

/-- A byte after bytes were written: the byte written, and elsewhere what was there. -/
theorem byteAt_writeBytes (m : List Host.Cell) (a : Nat) (bs : Bytes) (i : Nat) :
    byteAt (writeBytes m a bs) i = if a ≤ i ∧ i < a + bs.length then bs.getD (i - a) 0 else byteAt m i :=
  look_blit 0 m a bs i

theorem byteAt_wipe (m : List Host.Cell) (a n i : Nat) :
    byteAt (wipe m a n) i = if a ≤ i ∧ i < a + n then 0 else byteAt m i := look_wipe 0 m a n i

omit [DecidableEq α] in
@[simp] theorem length_readMany (d : α) (m : Map α) (n : Nat) : ∀ i, (readMany d m i n).length = n := by
  induction n with
  | zero => simp [readMany]
  | succ n ih => simp [readMany, ih]

omit [DecidableEq α] in
theorem getD_readMany (d : α) (m : Map α) (n : Nat) : ∀ i j, j < n → (readMany d m i n).getD j d = look d m (i + j) := by
  induction n with
  | zero => simp
  | succ n ih =>
    intro i j hj
    cases j with
    | zero => simp [readMany]
    | succ j => simp only [readMany, List.getD_cons_succ]; rw [ih (i + 1) j (by omega)]; congr 1; omega

/-- Reading back what was written. -/
theorem readMany_blit (d : α) (m : Map α) (i : Nat) (xs : List α) : readMany d (blit d m i xs) i xs.length = xs := by
  apply List.ext_getElem (by simp)
  intro j h1 h2
  have := getD_readMany d (blit d m i xs) xs.length i j (by simpa using h2)
  rw [look_blit] at this
  simp only [Nat.le_add_right, Nat.add_lt_add_iff_left, true_and, Nat.add_sub_cancel_left] at this
  rw [if_pos (by simpa using h2)] at this
  simpa [List.getD_eq_getElem?_getD, List.getElem?_eq_getElem h1, List.getElem?_eq_getElem h2] using this

end Sys2Proof.Machine
end

