-- ==== Sys2Proof/Laws/State.lean ====
section
/-! SUPPORT. What each update of the state leaves as it was, and what is read back, one lemma per field per update. -/

namespace Sys2Proof.Machine

/-! ## setCore -/

@[simp] theorem State.pending_setCore (s : State) (c : Nat) (k : Core) : (s.setCore c k).pending = s.pending := rfl
@[simp] theorem State.free_setCore (s : State) (c : Nat) (k : Core) : (s.setCore c k).free = s.free := rfl
@[simp] theorem State.sent_setCore (s : State) (c : Nat) (k : Core) : (s.setCore c k).sent = s.sent := rfl
@[simp] theorem State.objs_setCore (s : State) (c : Nat) (k : Core) : (s.setCore c k).objs = s.objs := rfl
@[simp] theorem State.regs_setCore (s : State) (c : Nat) (k : Core) : (s.setCore c k).regs = s.regs := rfl
@[simp] theorem State.mem_setCore (s : State) (c : Nat) (k : Core) : (s.setCore c k).mem = s.mem := rfl
@[simp] theorem State.bad_setCore (s : State) (c : Nat) (k : Core) : (s.setCore c k).bad = s.bad := rfl
@[simp] theorem State.tiers_setCore (s : State) (c : Nat) (k : Core) : (s.setCore c k).tiers = s.tiers := rfl
@[simp] theorem State.scrubExt_setCore (s : State) (c : Nat) (k : Core) : (s.setCore c k).scrubExt = s.scrubExt := rfl
@[simp] theorem State.rows_setCore (s : State) (c : Nat) (k : Core) : (s.setCore c k).rows = s.rows := rfl
@[simp] theorem State.bays_setCore (s : State) (c : Nat) (k : Core) : (s.setCore c k).bays = s.bays := rfl
@[simp] theorem State.parts_setCore (s : State) (c : Nat) (k : Core) : (s.setCore c k).parts = s.parts := rfl
@[simp] theorem State.ctxs_setCore (s : State) (c : Nat) (k : Core) : (s.setCore c k).ctxs = s.ctxs := rfl
@[simp] theorem State.queues_setCore (s : State) (c : Nat) (k : Core) : (s.setCore c k).queues = s.queues := rfl
@[simp] theorem State.ports_setCore (s : State) (c : Nat) (k : Core) : (s.setCore c k).ports = s.ports := rfl
@[simp] theorem State.mcs_setCore (s : State) (c : Nat) (k : Core) : (s.setCore c k).mcs = s.mcs := rfl
@[simp] theorem State.sus_setCore (s : State) (c : Nat) (k : Core) : (s.setCore c k).sus = s.sus := rfl
@[simp] theorem State.colls_setCore (s : State) (c : Nat) (k : Core) : (s.setCore c k).colls = s.colls := rfl
@[simp] theorem State.links_setCore (s : State) (c : Nat) (k : Core) : (s.setCore c k).links = s.links := rfl
@[simp] theorem State.net_setCore (s : State) (c : Nat) (k : Core) : (s.setCore c k).net = s.net := rfl
@[simp] theorem State.dict_setCore (s : State) (c : Nat) (k : Core) : (s.setCore c k).dict = s.dict := rfl
@[simp] theorem State.scribe_setCore (s : State) (c : Nat) (k : Core) : (s.setCore c k).scribe = s.scribe := rfl
@[simp] theorem State.raising_setCore (s : State) (c : Nat) (k : Core) : (s.setCore c k).raising = s.raising := rfl
@[simp] theorem State.fw_setCore (s : State) (c : Nat) (k : Core) : (s.setCore c k).fw = s.fw := rfl
@[simp] theorem State.sec_setCore (s : State) (c : Nat) (k : Core) : (s.setCore c k).sec = s.sec := rfl
@[simp] theorem State.power_setCore (s : State) (c : Nat) (k : Core) : (s.setCore c k).power = s.power := rfl
@[simp] theorem State.clock_setCore (s : State) (c : Nat) (k : Core) : (s.setCore c k).clock = s.clock := rfl
@[simp] theorem State.pins_setCore (s : State) (c : Nat) (k : Core) : (s.setCore c k).pins = s.pins := rfl
@[simp] theorem State.fuses_setCore (s : State) (c : Nat) (k : Core) : (s.setCore c k).fuses = s.fuses := rfl
@[simp] theorem State.row_setCore (s : State) (c : Nat) (k : Core) (j : Nat) : (s.setCore c k).row j = s.row j := rfl
@[simp] theorem State.bay_setCore (s : State) (c : Nat) (k : Core) (j : Nat) : (s.setCore c k).bay j = s.bay j := rfl
@[simp] theorem State.part_setCore (s : State) (c : Nat) (k : Core) (j : Nat) : (s.setCore c k).part j = s.part j := rfl
@[simp] theorem State.ctx_setCore (s : State) (c : Nat) (k : Core) (j : Nat) : (s.setCore c k).ctx j = s.ctx j := rfl
@[simp] theorem State.queue_setCore (s : State) (c : Nat) (k : Core) (j : Nat) : (s.setCore c k).queue j = s.queue j := rfl
@[simp] theorem State.port_setCore (s : State) (c : Nat) (k : Core) (j : Nat) : (s.setCore c k).port j = s.port j := rfl
@[simp] theorem State.mc_setCore (s : State) (c : Nat) (k : Core) (j : Nat) : (s.setCore c k).mc j = s.mc j := rfl
@[simp] theorem State.su_setCore (s : State) (c : Nat) (k : Core) (j : Nat) : (s.setCore c k).su j = s.su j := rfl
@[simp] theorem State.coll_setCore (s : State) (c : Nat) (k : Core) (j : Nat) : (s.setCore c k).coll j = s.coll j := rfl
@[simp] theorem State.link_setCore (s : State) (c : Nat) (k : Core) (j : Nat) : (s.setCore c k).link j = s.link j := rfl
@[simp] theorem State.obj_setCore (s : State) (c : Nat) (k : Core) (j y : Nat) : (s.setCore c k).obj j y = s.obj j y := rfl
@[simp] theorem State.getN_setCore (s : State) (c : Nat) (k : Core) (j y : Nat) : (s.setCore c k).getN j y = s.getN j y := rfl
@[simp] theorem State.getB_setCore (s : State) (c : Nat) (k : Core) (j y : Nat) : (s.setCore c k).getB j y = s.getB j y := rfl
@[simp] theorem State.getR_setCore (s : State) (c : Nat) (k : Core) (j y : Nat) : (s.setCore c k).getR j y = s.getR j y := rfl
theorem State.core_setCore (s : State) (c : Nat) (k : Core) (j : Nat) :
    (s.setCore c k).core j = if j = c then k else s.core j := look_put _ _ _ _ _
@[simp] theorem State.core_setCore_same (s : State) (c : Nat) (k : Core) : (s.setCore c k).core c = k := look_put_same _ _ _ _
theorem State.core_setCore_other (s : State) (c : Nat) (k : Core) (j : Nat) (h : j ≠ c) :
    (s.setCore c k).core j = s.core j := look_put_other _ _ _ h

/-! ## setRow -/

@[simp] theorem State.pending_setRow (s : State) (r : Nat) (x : Row) : (s.setRow r x).pending = s.pending := rfl
@[simp] theorem State.free_setRow (s : State) (r : Nat) (x : Row) : (s.setRow r x).free = s.free := rfl
@[simp] theorem State.sent_setRow (s : State) (r : Nat) (x : Row) : (s.setRow r x).sent = s.sent := rfl
@[simp] theorem State.objs_setRow (s : State) (r : Nat) (x : Row) : (s.setRow r x).objs = s.objs := rfl
@[simp] theorem State.regs_setRow (s : State) (r : Nat) (x : Row) : (s.setRow r x).regs = s.regs := rfl
@[simp] theorem State.mem_setRow (s : State) (r : Nat) (x : Row) : (s.setRow r x).mem = s.mem := rfl
@[simp] theorem State.bad_setRow (s : State) (r : Nat) (x : Row) : (s.setRow r x).bad = s.bad := rfl
@[simp] theorem State.tiers_setRow (s : State) (r : Nat) (x : Row) : (s.setRow r x).tiers = s.tiers := rfl
@[simp] theorem State.scrubExt_setRow (s : State) (r : Nat) (x : Row) : (s.setRow r x).scrubExt = s.scrubExt := rfl
@[simp] theorem State.cores_setRow (s : State) (r : Nat) (x : Row) : (s.setRow r x).cores = s.cores := rfl
@[simp] theorem State.bays_setRow (s : State) (r : Nat) (x : Row) : (s.setRow r x).bays = s.bays := rfl
@[simp] theorem State.parts_setRow (s : State) (r : Nat) (x : Row) : (s.setRow r x).parts = s.parts := rfl
@[simp] theorem State.ctxs_setRow (s : State) (r : Nat) (x : Row) : (s.setRow r x).ctxs = s.ctxs := rfl
@[simp] theorem State.queues_setRow (s : State) (r : Nat) (x : Row) : (s.setRow r x).queues = s.queues := rfl
@[simp] theorem State.ports_setRow (s : State) (r : Nat) (x : Row) : (s.setRow r x).ports = s.ports := rfl
@[simp] theorem State.mcs_setRow (s : State) (r : Nat) (x : Row) : (s.setRow r x).mcs = s.mcs := rfl
@[simp] theorem State.sus_setRow (s : State) (r : Nat) (x : Row) : (s.setRow r x).sus = s.sus := rfl
@[simp] theorem State.colls_setRow (s : State) (r : Nat) (x : Row) : (s.setRow r x).colls = s.colls := rfl
@[simp] theorem State.links_setRow (s : State) (r : Nat) (x : Row) : (s.setRow r x).links = s.links := rfl
@[simp] theorem State.net_setRow (s : State) (r : Nat) (x : Row) : (s.setRow r x).net = s.net := rfl
@[simp] theorem State.dict_setRow (s : State) (r : Nat) (x : Row) : (s.setRow r x).dict = s.dict := rfl
@[simp] theorem State.scribe_setRow (s : State) (r : Nat) (x : Row) : (s.setRow r x).scribe = s.scribe := rfl
@[simp] theorem State.raising_setRow (s : State) (r : Nat) (x : Row) : (s.setRow r x).raising = s.raising := rfl
@[simp] theorem State.fw_setRow (s : State) (r : Nat) (x : Row) : (s.setRow r x).fw = s.fw := rfl
@[simp] theorem State.sec_setRow (s : State) (r : Nat) (x : Row) : (s.setRow r x).sec = s.sec := rfl
@[simp] theorem State.power_setRow (s : State) (r : Nat) (x : Row) : (s.setRow r x).power = s.power := rfl
@[simp] theorem State.clock_setRow (s : State) (r : Nat) (x : Row) : (s.setRow r x).clock = s.clock := rfl
@[simp] theorem State.pins_setRow (s : State) (r : Nat) (x : Row) : (s.setRow r x).pins = s.pins := rfl
@[simp] theorem State.fuses_setRow (s : State) (r : Nat) (x : Row) : (s.setRow r x).fuses = s.fuses := rfl
@[simp] theorem State.core_setRow (s : State) (r : Nat) (x : Row) (j : Nat) : (s.setRow r x).core j = s.core j := rfl
@[simp] theorem State.bay_setRow (s : State) (r : Nat) (x : Row) (j : Nat) : (s.setRow r x).bay j = s.bay j := rfl
@[simp] theorem State.part_setRow (s : State) (r : Nat) (x : Row) (j : Nat) : (s.setRow r x).part j = s.part j := rfl
@[simp] theorem State.ctx_setRow (s : State) (r : Nat) (x : Row) (j : Nat) : (s.setRow r x).ctx j = s.ctx j := rfl
@[simp] theorem State.queue_setRow (s : State) (r : Nat) (x : Row) (j : Nat) : (s.setRow r x).queue j = s.queue j := rfl
@[simp] theorem State.port_setRow (s : State) (r : Nat) (x : Row) (j : Nat) : (s.setRow r x).port j = s.port j := rfl
@[simp] theorem State.mc_setRow (s : State) (r : Nat) (x : Row) (j : Nat) : (s.setRow r x).mc j = s.mc j := rfl
@[simp] theorem State.su_setRow (s : State) (r : Nat) (x : Row) (j : Nat) : (s.setRow r x).su j = s.su j := rfl
@[simp] theorem State.coll_setRow (s : State) (r : Nat) (x : Row) (j : Nat) : (s.setRow r x).coll j = s.coll j := rfl
@[simp] theorem State.link_setRow (s : State) (r : Nat) (x : Row) (j : Nat) : (s.setRow r x).link j = s.link j := rfl
@[simp] theorem State.obj_setRow (s : State) (r : Nat) (x : Row) (j y : Nat) : (s.setRow r x).obj j y = s.obj j y := rfl
@[simp] theorem State.getN_setRow (s : State) (r : Nat) (x : Row) (j y : Nat) : (s.setRow r x).getN j y = s.getN j y := rfl
@[simp] theorem State.getB_setRow (s : State) (r : Nat) (x : Row) (j y : Nat) : (s.setRow r x).getB j y = s.getB j y := rfl
@[simp] theorem State.getR_setRow (s : State) (r : Nat) (x : Row) (j y : Nat) : (s.setRow r x).getR j y = s.getR j y := rfl
theorem State.row_setRow (s : State) (r : Nat) (x : Row) (j : Nat) :
    (s.setRow r x).row j = if j = r then x else s.row j := look_put _ _ _ _ _
@[simp] theorem State.row_setRow_same (s : State) (r : Nat) (x : Row) : (s.setRow r x).row r = x := look_put_same _ _ _ _
theorem State.row_setRow_other (s : State) (r : Nat) (x : Row) (j : Nat) (h : j ≠ r) :
    (s.setRow r x).row j = s.row j := look_put_other _ _ _ h

/-! ## setBay -/

@[simp] theorem State.pending_setBay (s : State) (b : Nat) (x : Bay) : (s.setBay b x).pending = s.pending := rfl
@[simp] theorem State.free_setBay (s : State) (b : Nat) (x : Bay) : (s.setBay b x).free = s.free := rfl
@[simp] theorem State.sent_setBay (s : State) (b : Nat) (x : Bay) : (s.setBay b x).sent = s.sent := rfl
@[simp] theorem State.objs_setBay (s : State) (b : Nat) (x : Bay) : (s.setBay b x).objs = s.objs := rfl
@[simp] theorem State.regs_setBay (s : State) (b : Nat) (x : Bay) : (s.setBay b x).regs = s.regs := rfl
@[simp] theorem State.mem_setBay (s : State) (b : Nat) (x : Bay) : (s.setBay b x).mem = s.mem := rfl
@[simp] theorem State.bad_setBay (s : State) (b : Nat) (x : Bay) : (s.setBay b x).bad = s.bad := rfl
@[simp] theorem State.tiers_setBay (s : State) (b : Nat) (x : Bay) : (s.setBay b x).tiers = s.tiers := rfl
@[simp] theorem State.scrubExt_setBay (s : State) (b : Nat) (x : Bay) : (s.setBay b x).scrubExt = s.scrubExt := rfl
@[simp] theorem State.cores_setBay (s : State) (b : Nat) (x : Bay) : (s.setBay b x).cores = s.cores := rfl
@[simp] theorem State.rows_setBay (s : State) (b : Nat) (x : Bay) : (s.setBay b x).rows = s.rows := rfl
@[simp] theorem State.parts_setBay (s : State) (b : Nat) (x : Bay) : (s.setBay b x).parts = s.parts := rfl
@[simp] theorem State.ctxs_setBay (s : State) (b : Nat) (x : Bay) : (s.setBay b x).ctxs = s.ctxs := rfl
@[simp] theorem State.queues_setBay (s : State) (b : Nat) (x : Bay) : (s.setBay b x).queues = s.queues := rfl
@[simp] theorem State.ports_setBay (s : State) (b : Nat) (x : Bay) : (s.setBay b x).ports = s.ports := rfl
@[simp] theorem State.mcs_setBay (s : State) (b : Nat) (x : Bay) : (s.setBay b x).mcs = s.mcs := rfl
@[simp] theorem State.sus_setBay (s : State) (b : Nat) (x : Bay) : (s.setBay b x).sus = s.sus := rfl
@[simp] theorem State.colls_setBay (s : State) (b : Nat) (x : Bay) : (s.setBay b x).colls = s.colls := rfl
@[simp] theorem State.links_setBay (s : State) (b : Nat) (x : Bay) : (s.setBay b x).links = s.links := rfl
@[simp] theorem State.net_setBay (s : State) (b : Nat) (x : Bay) : (s.setBay b x).net = s.net := rfl
@[simp] theorem State.dict_setBay (s : State) (b : Nat) (x : Bay) : (s.setBay b x).dict = s.dict := rfl
@[simp] theorem State.scribe_setBay (s : State) (b : Nat) (x : Bay) : (s.setBay b x).scribe = s.scribe := rfl
@[simp] theorem State.raising_setBay (s : State) (b : Nat) (x : Bay) : (s.setBay b x).raising = s.raising := rfl
@[simp] theorem State.fw_setBay (s : State) (b : Nat) (x : Bay) : (s.setBay b x).fw = s.fw := rfl
@[simp] theorem State.sec_setBay (s : State) (b : Nat) (x : Bay) : (s.setBay b x).sec = s.sec := rfl
@[simp] theorem State.power_setBay (s : State) (b : Nat) (x : Bay) : (s.setBay b x).power = s.power := rfl
@[simp] theorem State.clock_setBay (s : State) (b : Nat) (x : Bay) : (s.setBay b x).clock = s.clock := rfl
@[simp] theorem State.pins_setBay (s : State) (b : Nat) (x : Bay) : (s.setBay b x).pins = s.pins := rfl
@[simp] theorem State.fuses_setBay (s : State) (b : Nat) (x : Bay) : (s.setBay b x).fuses = s.fuses := rfl
@[simp] theorem State.core_setBay (s : State) (b : Nat) (x : Bay) (j : Nat) : (s.setBay b x).core j = s.core j := rfl
@[simp] theorem State.row_setBay (s : State) (b : Nat) (x : Bay) (j : Nat) : (s.setBay b x).row j = s.row j := rfl
@[simp] theorem State.part_setBay (s : State) (b : Nat) (x : Bay) (j : Nat) : (s.setBay b x).part j = s.part j := rfl
@[simp] theorem State.ctx_setBay (s : State) (b : Nat) (x : Bay) (j : Nat) : (s.setBay b x).ctx j = s.ctx j := rfl
@[simp] theorem State.queue_setBay (s : State) (b : Nat) (x : Bay) (j : Nat) : (s.setBay b x).queue j = s.queue j := rfl
@[simp] theorem State.port_setBay (s : State) (b : Nat) (x : Bay) (j : Nat) : (s.setBay b x).port j = s.port j := rfl
@[simp] theorem State.mc_setBay (s : State) (b : Nat) (x : Bay) (j : Nat) : (s.setBay b x).mc j = s.mc j := rfl
@[simp] theorem State.su_setBay (s : State) (b : Nat) (x : Bay) (j : Nat) : (s.setBay b x).su j = s.su j := rfl
@[simp] theorem State.coll_setBay (s : State) (b : Nat) (x : Bay) (j : Nat) : (s.setBay b x).coll j = s.coll j := rfl
@[simp] theorem State.link_setBay (s : State) (b : Nat) (x : Bay) (j : Nat) : (s.setBay b x).link j = s.link j := rfl
@[simp] theorem State.obj_setBay (s : State) (b : Nat) (x : Bay) (j y : Nat) : (s.setBay b x).obj j y = s.obj j y := rfl
@[simp] theorem State.getN_setBay (s : State) (b : Nat) (x : Bay) (j y : Nat) : (s.setBay b x).getN j y = s.getN j y := rfl
@[simp] theorem State.getB_setBay (s : State) (b : Nat) (x : Bay) (j y : Nat) : (s.setBay b x).getB j y = s.getB j y := rfl
@[simp] theorem State.getR_setBay (s : State) (b : Nat) (x : Bay) (j y : Nat) : (s.setBay b x).getR j y = s.getR j y := rfl
theorem State.bay_setBay (s : State) (b : Nat) (x : Bay) (j : Nat) :
    (s.setBay b x).bay j = if j = b then x else s.bay j := look_put _ _ _ _ _
@[simp] theorem State.bay_setBay_same (s : State) (b : Nat) (x : Bay) : (s.setBay b x).bay b = x := look_put_same _ _ _ _
theorem State.bay_setBay_other (s : State) (b : Nat) (x : Bay) (j : Nat) (h : j ≠ b) :
    (s.setBay b x).bay j = s.bay j := look_put_other _ _ _ h

/-! ## setPart -/

@[simp] theorem State.pending_setPart (s : State) (p : Nat) (x : Part) : (s.setPart p x).pending = s.pending := rfl
@[simp] theorem State.free_setPart (s : State) (p : Nat) (x : Part) : (s.setPart p x).free = s.free := rfl
@[simp] theorem State.sent_setPart (s : State) (p : Nat) (x : Part) : (s.setPart p x).sent = s.sent := rfl
@[simp] theorem State.objs_setPart (s : State) (p : Nat) (x : Part) : (s.setPart p x).objs = s.objs := rfl
@[simp] theorem State.regs_setPart (s : State) (p : Nat) (x : Part) : (s.setPart p x).regs = s.regs := rfl
@[simp] theorem State.mem_setPart (s : State) (p : Nat) (x : Part) : (s.setPart p x).mem = s.mem := rfl
@[simp] theorem State.bad_setPart (s : State) (p : Nat) (x : Part) : (s.setPart p x).bad = s.bad := rfl
@[simp] theorem State.tiers_setPart (s : State) (p : Nat) (x : Part) : (s.setPart p x).tiers = s.tiers := rfl
@[simp] theorem State.scrubExt_setPart (s : State) (p : Nat) (x : Part) : (s.setPart p x).scrubExt = s.scrubExt := rfl
@[simp] theorem State.cores_setPart (s : State) (p : Nat) (x : Part) : (s.setPart p x).cores = s.cores := rfl
@[simp] theorem State.rows_setPart (s : State) (p : Nat) (x : Part) : (s.setPart p x).rows = s.rows := rfl
@[simp] theorem State.bays_setPart (s : State) (p : Nat) (x : Part) : (s.setPart p x).bays = s.bays := rfl
@[simp] theorem State.ctxs_setPart (s : State) (p : Nat) (x : Part) : (s.setPart p x).ctxs = s.ctxs := rfl
@[simp] theorem State.queues_setPart (s : State) (p : Nat) (x : Part) : (s.setPart p x).queues = s.queues := rfl
@[simp] theorem State.ports_setPart (s : State) (p : Nat) (x : Part) : (s.setPart p x).ports = s.ports := rfl
@[simp] theorem State.mcs_setPart (s : State) (p : Nat) (x : Part) : (s.setPart p x).mcs = s.mcs := rfl
@[simp] theorem State.sus_setPart (s : State) (p : Nat) (x : Part) : (s.setPart p x).sus = s.sus := rfl
@[simp] theorem State.colls_setPart (s : State) (p : Nat) (x : Part) : (s.setPart p x).colls = s.colls := rfl
@[simp] theorem State.links_setPart (s : State) (p : Nat) (x : Part) : (s.setPart p x).links = s.links := rfl
@[simp] theorem State.net_setPart (s : State) (p : Nat) (x : Part) : (s.setPart p x).net = s.net := rfl
@[simp] theorem State.dict_setPart (s : State) (p : Nat) (x : Part) : (s.setPart p x).dict = s.dict := rfl
@[simp] theorem State.scribe_setPart (s : State) (p : Nat) (x : Part) : (s.setPart p x).scribe = s.scribe := rfl
@[simp] theorem State.raising_setPart (s : State) (p : Nat) (x : Part) : (s.setPart p x).raising = s.raising := rfl
@[simp] theorem State.fw_setPart (s : State) (p : Nat) (x : Part) : (s.setPart p x).fw = s.fw := rfl
@[simp] theorem State.sec_setPart (s : State) (p : Nat) (x : Part) : (s.setPart p x).sec = s.sec := rfl
@[simp] theorem State.power_setPart (s : State) (p : Nat) (x : Part) : (s.setPart p x).power = s.power := rfl
@[simp] theorem State.clock_setPart (s : State) (p : Nat) (x : Part) : (s.setPart p x).clock = s.clock := rfl
@[simp] theorem State.pins_setPart (s : State) (p : Nat) (x : Part) : (s.setPart p x).pins = s.pins := rfl
@[simp] theorem State.fuses_setPart (s : State) (p : Nat) (x : Part) : (s.setPart p x).fuses = s.fuses := rfl
@[simp] theorem State.core_setPart (s : State) (p : Nat) (x : Part) (j : Nat) : (s.setPart p x).core j = s.core j := rfl
@[simp] theorem State.row_setPart (s : State) (p : Nat) (x : Part) (j : Nat) : (s.setPart p x).row j = s.row j := rfl
@[simp] theorem State.bay_setPart (s : State) (p : Nat) (x : Part) (j : Nat) : (s.setPart p x).bay j = s.bay j := rfl
@[simp] theorem State.ctx_setPart (s : State) (p : Nat) (x : Part) (j : Nat) : (s.setPart p x).ctx j = s.ctx j := rfl
@[simp] theorem State.queue_setPart (s : State) (p : Nat) (x : Part) (j : Nat) : (s.setPart p x).queue j = s.queue j := rfl
@[simp] theorem State.port_setPart (s : State) (p : Nat) (x : Part) (j : Nat) : (s.setPart p x).port j = s.port j := rfl
@[simp] theorem State.mc_setPart (s : State) (p : Nat) (x : Part) (j : Nat) : (s.setPart p x).mc j = s.mc j := rfl
@[simp] theorem State.su_setPart (s : State) (p : Nat) (x : Part) (j : Nat) : (s.setPart p x).su j = s.su j := rfl
@[simp] theorem State.coll_setPart (s : State) (p : Nat) (x : Part) (j : Nat) : (s.setPart p x).coll j = s.coll j := rfl
@[simp] theorem State.link_setPart (s : State) (p : Nat) (x : Part) (j : Nat) : (s.setPart p x).link j = s.link j := rfl
@[simp] theorem State.obj_setPart (s : State) (p : Nat) (x : Part) (j y : Nat) : (s.setPart p x).obj j y = s.obj j y := rfl
@[simp] theorem State.getN_setPart (s : State) (p : Nat) (x : Part) (j y : Nat) : (s.setPart p x).getN j y = s.getN j y := rfl
@[simp] theorem State.getB_setPart (s : State) (p : Nat) (x : Part) (j y : Nat) : (s.setPart p x).getB j y = s.getB j y := rfl
@[simp] theorem State.getR_setPart (s : State) (p : Nat) (x : Part) (j y : Nat) : (s.setPart p x).getR j y = s.getR j y := rfl
theorem State.part_setPart (s : State) (p : Nat) (x : Part) (j : Nat) :
    (s.setPart p x).part j = if j = p then x else s.part j := look_put _ _ _ _ _
@[simp] theorem State.part_setPart_same (s : State) (p : Nat) (x : Part) : (s.setPart p x).part p = x := look_put_same _ _ _ _
theorem State.part_setPart_other (s : State) (p : Nat) (x : Part) (j : Nat) (h : j ≠ p) :
    (s.setPart p x).part j = s.part j := look_put_other _ _ _ h

/-! ## setCtx -/

@[simp] theorem State.pending_setCtx (s : State) (x : Nat) (v : Ctx) : (s.setCtx x v).pending = s.pending := rfl
@[simp] theorem State.free_setCtx (s : State) (x : Nat) (v : Ctx) : (s.setCtx x v).free = s.free := rfl
@[simp] theorem State.sent_setCtx (s : State) (x : Nat) (v : Ctx) : (s.setCtx x v).sent = s.sent := rfl
@[simp] theorem State.objs_setCtx (s : State) (x : Nat) (v : Ctx) : (s.setCtx x v).objs = s.objs := rfl
@[simp] theorem State.regs_setCtx (s : State) (x : Nat) (v : Ctx) : (s.setCtx x v).regs = s.regs := rfl
@[simp] theorem State.mem_setCtx (s : State) (x : Nat) (v : Ctx) : (s.setCtx x v).mem = s.mem := rfl
@[simp] theorem State.bad_setCtx (s : State) (x : Nat) (v : Ctx) : (s.setCtx x v).bad = s.bad := rfl
@[simp] theorem State.tiers_setCtx (s : State) (x : Nat) (v : Ctx) : (s.setCtx x v).tiers = s.tiers := rfl
@[simp] theorem State.scrubExt_setCtx (s : State) (x : Nat) (v : Ctx) : (s.setCtx x v).scrubExt = s.scrubExt := rfl
@[simp] theorem State.cores_setCtx (s : State) (x : Nat) (v : Ctx) : (s.setCtx x v).cores = s.cores := rfl
@[simp] theorem State.rows_setCtx (s : State) (x : Nat) (v : Ctx) : (s.setCtx x v).rows = s.rows := rfl
@[simp] theorem State.bays_setCtx (s : State) (x : Nat) (v : Ctx) : (s.setCtx x v).bays = s.bays := rfl
@[simp] theorem State.parts_setCtx (s : State) (x : Nat) (v : Ctx) : (s.setCtx x v).parts = s.parts := rfl
@[simp] theorem State.queues_setCtx (s : State) (x : Nat) (v : Ctx) : (s.setCtx x v).queues = s.queues := rfl
@[simp] theorem State.ports_setCtx (s : State) (x : Nat) (v : Ctx) : (s.setCtx x v).ports = s.ports := rfl
@[simp] theorem State.mcs_setCtx (s : State) (x : Nat) (v : Ctx) : (s.setCtx x v).mcs = s.mcs := rfl
@[simp] theorem State.sus_setCtx (s : State) (x : Nat) (v : Ctx) : (s.setCtx x v).sus = s.sus := rfl
@[simp] theorem State.colls_setCtx (s : State) (x : Nat) (v : Ctx) : (s.setCtx x v).colls = s.colls := rfl
@[simp] theorem State.links_setCtx (s : State) (x : Nat) (v : Ctx) : (s.setCtx x v).links = s.links := rfl
@[simp] theorem State.net_setCtx (s : State) (x : Nat) (v : Ctx) : (s.setCtx x v).net = s.net := rfl
@[simp] theorem State.dict_setCtx (s : State) (x : Nat) (v : Ctx) : (s.setCtx x v).dict = s.dict := rfl
@[simp] theorem State.scribe_setCtx (s : State) (x : Nat) (v : Ctx) : (s.setCtx x v).scribe = s.scribe := rfl
@[simp] theorem State.raising_setCtx (s : State) (x : Nat) (v : Ctx) : (s.setCtx x v).raising = s.raising := rfl
@[simp] theorem State.fw_setCtx (s : State) (x : Nat) (v : Ctx) : (s.setCtx x v).fw = s.fw := rfl
@[simp] theorem State.sec_setCtx (s : State) (x : Nat) (v : Ctx) : (s.setCtx x v).sec = s.sec := rfl
@[simp] theorem State.power_setCtx (s : State) (x : Nat) (v : Ctx) : (s.setCtx x v).power = s.power := rfl
@[simp] theorem State.clock_setCtx (s : State) (x : Nat) (v : Ctx) : (s.setCtx x v).clock = s.clock := rfl
@[simp] theorem State.pins_setCtx (s : State) (x : Nat) (v : Ctx) : (s.setCtx x v).pins = s.pins := rfl
@[simp] theorem State.fuses_setCtx (s : State) (x : Nat) (v : Ctx) : (s.setCtx x v).fuses = s.fuses := rfl
@[simp] theorem State.core_setCtx (s : State) (x : Nat) (v : Ctx) (j : Nat) : (s.setCtx x v).core j = s.core j := rfl
@[simp] theorem State.row_setCtx (s : State) (x : Nat) (v : Ctx) (j : Nat) : (s.setCtx x v).row j = s.row j := rfl
@[simp] theorem State.bay_setCtx (s : State) (x : Nat) (v : Ctx) (j : Nat) : (s.setCtx x v).bay j = s.bay j := rfl
@[simp] theorem State.part_setCtx (s : State) (x : Nat) (v : Ctx) (j : Nat) : (s.setCtx x v).part j = s.part j := rfl
@[simp] theorem State.queue_setCtx (s : State) (x : Nat) (v : Ctx) (j : Nat) : (s.setCtx x v).queue j = s.queue j := rfl
@[simp] theorem State.port_setCtx (s : State) (x : Nat) (v : Ctx) (j : Nat) : (s.setCtx x v).port j = s.port j := rfl
@[simp] theorem State.mc_setCtx (s : State) (x : Nat) (v : Ctx) (j : Nat) : (s.setCtx x v).mc j = s.mc j := rfl
@[simp] theorem State.su_setCtx (s : State) (x : Nat) (v : Ctx) (j : Nat) : (s.setCtx x v).su j = s.su j := rfl
@[simp] theorem State.coll_setCtx (s : State) (x : Nat) (v : Ctx) (j : Nat) : (s.setCtx x v).coll j = s.coll j := rfl
@[simp] theorem State.link_setCtx (s : State) (x : Nat) (v : Ctx) (j : Nat) : (s.setCtx x v).link j = s.link j := rfl
@[simp] theorem State.obj_setCtx (s : State) (x : Nat) (v : Ctx) (j y : Nat) : (s.setCtx x v).obj j y = s.obj j y := rfl
@[simp] theorem State.getN_setCtx (s : State) (x : Nat) (v : Ctx) (j y : Nat) : (s.setCtx x v).getN j y = s.getN j y := rfl
@[simp] theorem State.getB_setCtx (s : State) (x : Nat) (v : Ctx) (j y : Nat) : (s.setCtx x v).getB j y = s.getB j y := rfl
@[simp] theorem State.getR_setCtx (s : State) (x : Nat) (v : Ctx) (j y : Nat) : (s.setCtx x v).getR j y = s.getR j y := rfl
theorem State.ctx_setCtx (s : State) (x : Nat) (v : Ctx) (j : Nat) :
    (s.setCtx x v).ctx j = if j = x then v else s.ctx j := look_put _ _ _ _ _
@[simp] theorem State.ctx_setCtx_same (s : State) (x : Nat) (v : Ctx) : (s.setCtx x v).ctx x = v := look_put_same _ _ _ _
theorem State.ctx_setCtx_other (s : State) (x : Nat) (v : Ctx) (j : Nat) (h : j ≠ x) :
    (s.setCtx x v).ctx j = s.ctx j := look_put_other _ _ _ h

/-! ## setQueue -/

@[simp] theorem State.pending_setQueue (s : State) (q : Nat) (v : Queue) : (s.setQueue q v).pending = s.pending := rfl
@[simp] theorem State.free_setQueue (s : State) (q : Nat) (v : Queue) : (s.setQueue q v).free = s.free := rfl
@[simp] theorem State.sent_setQueue (s : State) (q : Nat) (v : Queue) : (s.setQueue q v).sent = s.sent := rfl
@[simp] theorem State.objs_setQueue (s : State) (q : Nat) (v : Queue) : (s.setQueue q v).objs = s.objs := rfl
@[simp] theorem State.regs_setQueue (s : State) (q : Nat) (v : Queue) : (s.setQueue q v).regs = s.regs := rfl
@[simp] theorem State.mem_setQueue (s : State) (q : Nat) (v : Queue) : (s.setQueue q v).mem = s.mem := rfl
@[simp] theorem State.bad_setQueue (s : State) (q : Nat) (v : Queue) : (s.setQueue q v).bad = s.bad := rfl
@[simp] theorem State.tiers_setQueue (s : State) (q : Nat) (v : Queue) : (s.setQueue q v).tiers = s.tiers := rfl
@[simp] theorem State.scrubExt_setQueue (s : State) (q : Nat) (v : Queue) : (s.setQueue q v).scrubExt = s.scrubExt := rfl
@[simp] theorem State.cores_setQueue (s : State) (q : Nat) (v : Queue) : (s.setQueue q v).cores = s.cores := rfl
@[simp] theorem State.rows_setQueue (s : State) (q : Nat) (v : Queue) : (s.setQueue q v).rows = s.rows := rfl
@[simp] theorem State.bays_setQueue (s : State) (q : Nat) (v : Queue) : (s.setQueue q v).bays = s.bays := rfl
@[simp] theorem State.parts_setQueue (s : State) (q : Nat) (v : Queue) : (s.setQueue q v).parts = s.parts := rfl
@[simp] theorem State.ctxs_setQueue (s : State) (q : Nat) (v : Queue) : (s.setQueue q v).ctxs = s.ctxs := rfl
@[simp] theorem State.ports_setQueue (s : State) (q : Nat) (v : Queue) : (s.setQueue q v).ports = s.ports := rfl
@[simp] theorem State.mcs_setQueue (s : State) (q : Nat) (v : Queue) : (s.setQueue q v).mcs = s.mcs := rfl
@[simp] theorem State.sus_setQueue (s : State) (q : Nat) (v : Queue) : (s.setQueue q v).sus = s.sus := rfl
@[simp] theorem State.colls_setQueue (s : State) (q : Nat) (v : Queue) : (s.setQueue q v).colls = s.colls := rfl
@[simp] theorem State.links_setQueue (s : State) (q : Nat) (v : Queue) : (s.setQueue q v).links = s.links := rfl
@[simp] theorem State.net_setQueue (s : State) (q : Nat) (v : Queue) : (s.setQueue q v).net = s.net := rfl
@[simp] theorem State.dict_setQueue (s : State) (q : Nat) (v : Queue) : (s.setQueue q v).dict = s.dict := rfl
@[simp] theorem State.scribe_setQueue (s : State) (q : Nat) (v : Queue) : (s.setQueue q v).scribe = s.scribe := rfl
@[simp] theorem State.raising_setQueue (s : State) (q : Nat) (v : Queue) : (s.setQueue q v).raising = s.raising := rfl
@[simp] theorem State.fw_setQueue (s : State) (q : Nat) (v : Queue) : (s.setQueue q v).fw = s.fw := rfl
@[simp] theorem State.sec_setQueue (s : State) (q : Nat) (v : Queue) : (s.setQueue q v).sec = s.sec := rfl
@[simp] theorem State.power_setQueue (s : State) (q : Nat) (v : Queue) : (s.setQueue q v).power = s.power := rfl
@[simp] theorem State.clock_setQueue (s : State) (q : Nat) (v : Queue) : (s.setQueue q v).clock = s.clock := rfl
@[simp] theorem State.pins_setQueue (s : State) (q : Nat) (v : Queue) : (s.setQueue q v).pins = s.pins := rfl
@[simp] theorem State.fuses_setQueue (s : State) (q : Nat) (v : Queue) : (s.setQueue q v).fuses = s.fuses := rfl
@[simp] theorem State.core_setQueue (s : State) (q : Nat) (v : Queue) (j : Nat) : (s.setQueue q v).core j = s.core j := rfl
@[simp] theorem State.row_setQueue (s : State) (q : Nat) (v : Queue) (j : Nat) : (s.setQueue q v).row j = s.row j := rfl
@[simp] theorem State.bay_setQueue (s : State) (q : Nat) (v : Queue) (j : Nat) : (s.setQueue q v).bay j = s.bay j := rfl
@[simp] theorem State.part_setQueue (s : State) (q : Nat) (v : Queue) (j : Nat) : (s.setQueue q v).part j = s.part j := rfl
@[simp] theorem State.ctx_setQueue (s : State) (q : Nat) (v : Queue) (j : Nat) : (s.setQueue q v).ctx j = s.ctx j := rfl
@[simp] theorem State.port_setQueue (s : State) (q : Nat) (v : Queue) (j : Nat) : (s.setQueue q v).port j = s.port j := rfl
@[simp] theorem State.mc_setQueue (s : State) (q : Nat) (v : Queue) (j : Nat) : (s.setQueue q v).mc j = s.mc j := rfl
@[simp] theorem State.su_setQueue (s : State) (q : Nat) (v : Queue) (j : Nat) : (s.setQueue q v).su j = s.su j := rfl
@[simp] theorem State.coll_setQueue (s : State) (q : Nat) (v : Queue) (j : Nat) : (s.setQueue q v).coll j = s.coll j := rfl
@[simp] theorem State.link_setQueue (s : State) (q : Nat) (v : Queue) (j : Nat) : (s.setQueue q v).link j = s.link j := rfl
@[simp] theorem State.obj_setQueue (s : State) (q : Nat) (v : Queue) (j y : Nat) : (s.setQueue q v).obj j y = s.obj j y := rfl
@[simp] theorem State.getN_setQueue (s : State) (q : Nat) (v : Queue) (j y : Nat) : (s.setQueue q v).getN j y = s.getN j y := rfl
@[simp] theorem State.getB_setQueue (s : State) (q : Nat) (v : Queue) (j y : Nat) : (s.setQueue q v).getB j y = s.getB j y := rfl
@[simp] theorem State.getR_setQueue (s : State) (q : Nat) (v : Queue) (j y : Nat) : (s.setQueue q v).getR j y = s.getR j y := rfl
theorem State.queue_setQueue (s : State) (q : Nat) (v : Queue) (j : Nat) :
    (s.setQueue q v).queue j = if j = q then v else s.queue j := look_put _ _ _ _ _
@[simp] theorem State.queue_setQueue_same (s : State) (q : Nat) (v : Queue) : (s.setQueue q v).queue q = v := look_put_same _ _ _ _
theorem State.queue_setQueue_other (s : State) (q : Nat) (v : Queue) (j : Nat) (h : j ≠ q) :
    (s.setQueue q v).queue j = s.queue j := look_put_other _ _ _ h

/-! ## setPort -/

@[simp] theorem State.pending_setPort (s : State) (n : Nat) (v : Port) : (s.setPort n v).pending = s.pending := rfl
@[simp] theorem State.free_setPort (s : State) (n : Nat) (v : Port) : (s.setPort n v).free = s.free := rfl
@[simp] theorem State.sent_setPort (s : State) (n : Nat) (v : Port) : (s.setPort n v).sent = s.sent := rfl
@[simp] theorem State.objs_setPort (s : State) (n : Nat) (v : Port) : (s.setPort n v).objs = s.objs := rfl
@[simp] theorem State.regs_setPort (s : State) (n : Nat) (v : Port) : (s.setPort n v).regs = s.regs := rfl
@[simp] theorem State.mem_setPort (s : State) (n : Nat) (v : Port) : (s.setPort n v).mem = s.mem := rfl
@[simp] theorem State.bad_setPort (s : State) (n : Nat) (v : Port) : (s.setPort n v).bad = s.bad := rfl
@[simp] theorem State.tiers_setPort (s : State) (n : Nat) (v : Port) : (s.setPort n v).tiers = s.tiers := rfl
@[simp] theorem State.scrubExt_setPort (s : State) (n : Nat) (v : Port) : (s.setPort n v).scrubExt = s.scrubExt := rfl
@[simp] theorem State.cores_setPort (s : State) (n : Nat) (v : Port) : (s.setPort n v).cores = s.cores := rfl
@[simp] theorem State.rows_setPort (s : State) (n : Nat) (v : Port) : (s.setPort n v).rows = s.rows := rfl
@[simp] theorem State.bays_setPort (s : State) (n : Nat) (v : Port) : (s.setPort n v).bays = s.bays := rfl
@[simp] theorem State.parts_setPort (s : State) (n : Nat) (v : Port) : (s.setPort n v).parts = s.parts := rfl
@[simp] theorem State.ctxs_setPort (s : State) (n : Nat) (v : Port) : (s.setPort n v).ctxs = s.ctxs := rfl
@[simp] theorem State.queues_setPort (s : State) (n : Nat) (v : Port) : (s.setPort n v).queues = s.queues := rfl
@[simp] theorem State.mcs_setPort (s : State) (n : Nat) (v : Port) : (s.setPort n v).mcs = s.mcs := rfl
@[simp] theorem State.sus_setPort (s : State) (n : Nat) (v : Port) : (s.setPort n v).sus = s.sus := rfl
@[simp] theorem State.colls_setPort (s : State) (n : Nat) (v : Port) : (s.setPort n v).colls = s.colls := rfl
@[simp] theorem State.links_setPort (s : State) (n : Nat) (v : Port) : (s.setPort n v).links = s.links := rfl
@[simp] theorem State.net_setPort (s : State) (n : Nat) (v : Port) : (s.setPort n v).net = s.net := rfl
@[simp] theorem State.dict_setPort (s : State) (n : Nat) (v : Port) : (s.setPort n v).dict = s.dict := rfl
@[simp] theorem State.scribe_setPort (s : State) (n : Nat) (v : Port) : (s.setPort n v).scribe = s.scribe := rfl
@[simp] theorem State.raising_setPort (s : State) (n : Nat) (v : Port) : (s.setPort n v).raising = s.raising := rfl
@[simp] theorem State.fw_setPort (s : State) (n : Nat) (v : Port) : (s.setPort n v).fw = s.fw := rfl
@[simp] theorem State.sec_setPort (s : State) (n : Nat) (v : Port) : (s.setPort n v).sec = s.sec := rfl
@[simp] theorem State.power_setPort (s : State) (n : Nat) (v : Port) : (s.setPort n v).power = s.power := rfl
@[simp] theorem State.clock_setPort (s : State) (n : Nat) (v : Port) : (s.setPort n v).clock = s.clock := rfl
@[simp] theorem State.pins_setPort (s : State) (n : Nat) (v : Port) : (s.setPort n v).pins = s.pins := rfl
@[simp] theorem State.fuses_setPort (s : State) (n : Nat) (v : Port) : (s.setPort n v).fuses = s.fuses := rfl
@[simp] theorem State.core_setPort (s : State) (n : Nat) (v : Port) (j : Nat) : (s.setPort n v).core j = s.core j := rfl
@[simp] theorem State.row_setPort (s : State) (n : Nat) (v : Port) (j : Nat) : (s.setPort n v).row j = s.row j := rfl
@[simp] theorem State.bay_setPort (s : State) (n : Nat) (v : Port) (j : Nat) : (s.setPort n v).bay j = s.bay j := rfl
@[simp] theorem State.part_setPort (s : State) (n : Nat) (v : Port) (j : Nat) : (s.setPort n v).part j = s.part j := rfl
@[simp] theorem State.ctx_setPort (s : State) (n : Nat) (v : Port) (j : Nat) : (s.setPort n v).ctx j = s.ctx j := rfl
@[simp] theorem State.queue_setPort (s : State) (n : Nat) (v : Port) (j : Nat) : (s.setPort n v).queue j = s.queue j := rfl
@[simp] theorem State.mc_setPort (s : State) (n : Nat) (v : Port) (j : Nat) : (s.setPort n v).mc j = s.mc j := rfl
@[simp] theorem State.su_setPort (s : State) (n : Nat) (v : Port) (j : Nat) : (s.setPort n v).su j = s.su j := rfl
@[simp] theorem State.coll_setPort (s : State) (n : Nat) (v : Port) (j : Nat) : (s.setPort n v).coll j = s.coll j := rfl
@[simp] theorem State.link_setPort (s : State) (n : Nat) (v : Port) (j : Nat) : (s.setPort n v).link j = s.link j := rfl
@[simp] theorem State.obj_setPort (s : State) (n : Nat) (v : Port) (j y : Nat) : (s.setPort n v).obj j y = s.obj j y := rfl
@[simp] theorem State.getN_setPort (s : State) (n : Nat) (v : Port) (j y : Nat) : (s.setPort n v).getN j y = s.getN j y := rfl
@[simp] theorem State.getB_setPort (s : State) (n : Nat) (v : Port) (j y : Nat) : (s.setPort n v).getB j y = s.getB j y := rfl
@[simp] theorem State.getR_setPort (s : State) (n : Nat) (v : Port) (j y : Nat) : (s.setPort n v).getR j y = s.getR j y := rfl
theorem State.port_setPort (s : State) (n : Nat) (v : Port) (j : Nat) :
    (s.setPort n v).port j = if j = n then v else s.port j := look_put _ _ _ _ _
@[simp] theorem State.port_setPort_same (s : State) (n : Nat) (v : Port) : (s.setPort n v).port n = v := look_put_same _ _ _ _
theorem State.port_setPort_other (s : State) (n : Nat) (v : Port) (j : Nat) (h : j ≠ n) :
    (s.setPort n v).port j = s.port j := look_put_other _ _ _ h

/-! ## setMc -/

@[simp] theorem State.pending_setMc (s : State) (n : Nat) (v : Mc) : (s.setMc n v).pending = s.pending := rfl
@[simp] theorem State.free_setMc (s : State) (n : Nat) (v : Mc) : (s.setMc n v).free = s.free := rfl
@[simp] theorem State.sent_setMc (s : State) (n : Nat) (v : Mc) : (s.setMc n v).sent = s.sent := rfl
@[simp] theorem State.objs_setMc (s : State) (n : Nat) (v : Mc) : (s.setMc n v).objs = s.objs := rfl
@[simp] theorem State.regs_setMc (s : State) (n : Nat) (v : Mc) : (s.setMc n v).regs = s.regs := rfl
@[simp] theorem State.mem_setMc (s : State) (n : Nat) (v : Mc) : (s.setMc n v).mem = s.mem := rfl
@[simp] theorem State.bad_setMc (s : State) (n : Nat) (v : Mc) : (s.setMc n v).bad = s.bad := rfl
@[simp] theorem State.tiers_setMc (s : State) (n : Nat) (v : Mc) : (s.setMc n v).tiers = s.tiers := rfl
@[simp] theorem State.scrubExt_setMc (s : State) (n : Nat) (v : Mc) : (s.setMc n v).scrubExt = s.scrubExt := rfl
@[simp] theorem State.cores_setMc (s : State) (n : Nat) (v : Mc) : (s.setMc n v).cores = s.cores := rfl
@[simp] theorem State.rows_setMc (s : State) (n : Nat) (v : Mc) : (s.setMc n v).rows = s.rows := rfl
@[simp] theorem State.bays_setMc (s : State) (n : Nat) (v : Mc) : (s.setMc n v).bays = s.bays := rfl
@[simp] theorem State.parts_setMc (s : State) (n : Nat) (v : Mc) : (s.setMc n v).parts = s.parts := rfl
@[simp] theorem State.ctxs_setMc (s : State) (n : Nat) (v : Mc) : (s.setMc n v).ctxs = s.ctxs := rfl
@[simp] theorem State.queues_setMc (s : State) (n : Nat) (v : Mc) : (s.setMc n v).queues = s.queues := rfl
@[simp] theorem State.ports_setMc (s : State) (n : Nat) (v : Mc) : (s.setMc n v).ports = s.ports := rfl
@[simp] theorem State.sus_setMc (s : State) (n : Nat) (v : Mc) : (s.setMc n v).sus = s.sus := rfl
@[simp] theorem State.colls_setMc (s : State) (n : Nat) (v : Mc) : (s.setMc n v).colls = s.colls := rfl
@[simp] theorem State.links_setMc (s : State) (n : Nat) (v : Mc) : (s.setMc n v).links = s.links := rfl
@[simp] theorem State.net_setMc (s : State) (n : Nat) (v : Mc) : (s.setMc n v).net = s.net := rfl
@[simp] theorem State.dict_setMc (s : State) (n : Nat) (v : Mc) : (s.setMc n v).dict = s.dict := rfl
@[simp] theorem State.scribe_setMc (s : State) (n : Nat) (v : Mc) : (s.setMc n v).scribe = s.scribe := rfl
@[simp] theorem State.raising_setMc (s : State) (n : Nat) (v : Mc) : (s.setMc n v).raising = s.raising := rfl
@[simp] theorem State.fw_setMc (s : State) (n : Nat) (v : Mc) : (s.setMc n v).fw = s.fw := rfl
@[simp] theorem State.sec_setMc (s : State) (n : Nat) (v : Mc) : (s.setMc n v).sec = s.sec := rfl
@[simp] theorem State.power_setMc (s : State) (n : Nat) (v : Mc) : (s.setMc n v).power = s.power := rfl
@[simp] theorem State.clock_setMc (s : State) (n : Nat) (v : Mc) : (s.setMc n v).clock = s.clock := rfl
@[simp] theorem State.pins_setMc (s : State) (n : Nat) (v : Mc) : (s.setMc n v).pins = s.pins := rfl
@[simp] theorem State.fuses_setMc (s : State) (n : Nat) (v : Mc) : (s.setMc n v).fuses = s.fuses := rfl
@[simp] theorem State.core_setMc (s : State) (n : Nat) (v : Mc) (j : Nat) : (s.setMc n v).core j = s.core j := rfl
@[simp] theorem State.row_setMc (s : State) (n : Nat) (v : Mc) (j : Nat) : (s.setMc n v).row j = s.row j := rfl
@[simp] theorem State.bay_setMc (s : State) (n : Nat) (v : Mc) (j : Nat) : (s.setMc n v).bay j = s.bay j := rfl
@[simp] theorem State.part_setMc (s : State) (n : Nat) (v : Mc) (j : Nat) : (s.setMc n v).part j = s.part j := rfl
@[simp] theorem State.ctx_setMc (s : State) (n : Nat) (v : Mc) (j : Nat) : (s.setMc n v).ctx j = s.ctx j := rfl
@[simp] theorem State.queue_setMc (s : State) (n : Nat) (v : Mc) (j : Nat) : (s.setMc n v).queue j = s.queue j := rfl
@[simp] theorem State.port_setMc (s : State) (n : Nat) (v : Mc) (j : Nat) : (s.setMc n v).port j = s.port j := rfl
@[simp] theorem State.su_setMc (s : State) (n : Nat) (v : Mc) (j : Nat) : (s.setMc n v).su j = s.su j := rfl
@[simp] theorem State.coll_setMc (s : State) (n : Nat) (v : Mc) (j : Nat) : (s.setMc n v).coll j = s.coll j := rfl
@[simp] theorem State.link_setMc (s : State) (n : Nat) (v : Mc) (j : Nat) : (s.setMc n v).link j = s.link j := rfl
@[simp] theorem State.obj_setMc (s : State) (n : Nat) (v : Mc) (j y : Nat) : (s.setMc n v).obj j y = s.obj j y := rfl
@[simp] theorem State.getN_setMc (s : State) (n : Nat) (v : Mc) (j y : Nat) : (s.setMc n v).getN j y = s.getN j y := rfl
@[simp] theorem State.getB_setMc (s : State) (n : Nat) (v : Mc) (j y : Nat) : (s.setMc n v).getB j y = s.getB j y := rfl
@[simp] theorem State.getR_setMc (s : State) (n : Nat) (v : Mc) (j y : Nat) : (s.setMc n v).getR j y = s.getR j y := rfl
theorem State.mc_setMc (s : State) (n : Nat) (v : Mc) (j : Nat) :
    (s.setMc n v).mc j = if j = n then v else s.mc j := look_put _ _ _ _ _
@[simp] theorem State.mc_setMc_same (s : State) (n : Nat) (v : Mc) : (s.setMc n v).mc n = v := look_put_same _ _ _ _
theorem State.mc_setMc_other (s : State) (n : Nat) (v : Mc) (j : Nat) (h : j ≠ n) :
    (s.setMc n v).mc j = s.mc j := look_put_other _ _ _ h

/-! ## setSu -/

@[simp] theorem State.pending_setSu (s : State) (n : Nat) (v : Su) : (s.setSu n v).pending = s.pending := rfl
@[simp] theorem State.free_setSu (s : State) (n : Nat) (v : Su) : (s.setSu n v).free = s.free := rfl
@[simp] theorem State.sent_setSu (s : State) (n : Nat) (v : Su) : (s.setSu n v).sent = s.sent := rfl
@[simp] theorem State.objs_setSu (s : State) (n : Nat) (v : Su) : (s.setSu n v).objs = s.objs := rfl
@[simp] theorem State.regs_setSu (s : State) (n : Nat) (v : Su) : (s.setSu n v).regs = s.regs := rfl
@[simp] theorem State.mem_setSu (s : State) (n : Nat) (v : Su) : (s.setSu n v).mem = s.mem := rfl
@[simp] theorem State.bad_setSu (s : State) (n : Nat) (v : Su) : (s.setSu n v).bad = s.bad := rfl
@[simp] theorem State.tiers_setSu (s : State) (n : Nat) (v : Su) : (s.setSu n v).tiers = s.tiers := rfl
@[simp] theorem State.scrubExt_setSu (s : State) (n : Nat) (v : Su) : (s.setSu n v).scrubExt = s.scrubExt := rfl
@[simp] theorem State.cores_setSu (s : State) (n : Nat) (v : Su) : (s.setSu n v).cores = s.cores := rfl
@[simp] theorem State.rows_setSu (s : State) (n : Nat) (v : Su) : (s.setSu n v).rows = s.rows := rfl
@[simp] theorem State.bays_setSu (s : State) (n : Nat) (v : Su) : (s.setSu n v).bays = s.bays := rfl
@[simp] theorem State.parts_setSu (s : State) (n : Nat) (v : Su) : (s.setSu n v).parts = s.parts := rfl
@[simp] theorem State.ctxs_setSu (s : State) (n : Nat) (v : Su) : (s.setSu n v).ctxs = s.ctxs := rfl
@[simp] theorem State.queues_setSu (s : State) (n : Nat) (v : Su) : (s.setSu n v).queues = s.queues := rfl
@[simp] theorem State.ports_setSu (s : State) (n : Nat) (v : Su) : (s.setSu n v).ports = s.ports := rfl
@[simp] theorem State.mcs_setSu (s : State) (n : Nat) (v : Su) : (s.setSu n v).mcs = s.mcs := rfl
@[simp] theorem State.colls_setSu (s : State) (n : Nat) (v : Su) : (s.setSu n v).colls = s.colls := rfl
@[simp] theorem State.links_setSu (s : State) (n : Nat) (v : Su) : (s.setSu n v).links = s.links := rfl
@[simp] theorem State.net_setSu (s : State) (n : Nat) (v : Su) : (s.setSu n v).net = s.net := rfl
@[simp] theorem State.dict_setSu (s : State) (n : Nat) (v : Su) : (s.setSu n v).dict = s.dict := rfl
@[simp] theorem State.scribe_setSu (s : State) (n : Nat) (v : Su) : (s.setSu n v).scribe = s.scribe := rfl
@[simp] theorem State.raising_setSu (s : State) (n : Nat) (v : Su) : (s.setSu n v).raising = s.raising := rfl
@[simp] theorem State.fw_setSu (s : State) (n : Nat) (v : Su) : (s.setSu n v).fw = s.fw := rfl
@[simp] theorem State.sec_setSu (s : State) (n : Nat) (v : Su) : (s.setSu n v).sec = s.sec := rfl
@[simp] theorem State.power_setSu (s : State) (n : Nat) (v : Su) : (s.setSu n v).power = s.power := rfl
@[simp] theorem State.clock_setSu (s : State) (n : Nat) (v : Su) : (s.setSu n v).clock = s.clock := rfl
@[simp] theorem State.pins_setSu (s : State) (n : Nat) (v : Su) : (s.setSu n v).pins = s.pins := rfl
@[simp] theorem State.fuses_setSu (s : State) (n : Nat) (v : Su) : (s.setSu n v).fuses = s.fuses := rfl
@[simp] theorem State.core_setSu (s : State) (n : Nat) (v : Su) (j : Nat) : (s.setSu n v).core j = s.core j := rfl
@[simp] theorem State.row_setSu (s : State) (n : Nat) (v : Su) (j : Nat) : (s.setSu n v).row j = s.row j := rfl
@[simp] theorem State.bay_setSu (s : State) (n : Nat) (v : Su) (j : Nat) : (s.setSu n v).bay j = s.bay j := rfl
@[simp] theorem State.part_setSu (s : State) (n : Nat) (v : Su) (j : Nat) : (s.setSu n v).part j = s.part j := rfl
@[simp] theorem State.ctx_setSu (s : State) (n : Nat) (v : Su) (j : Nat) : (s.setSu n v).ctx j = s.ctx j := rfl
@[simp] theorem State.queue_setSu (s : State) (n : Nat) (v : Su) (j : Nat) : (s.setSu n v).queue j = s.queue j := rfl
@[simp] theorem State.port_setSu (s : State) (n : Nat) (v : Su) (j : Nat) : (s.setSu n v).port j = s.port j := rfl
@[simp] theorem State.mc_setSu (s : State) (n : Nat) (v : Su) (j : Nat) : (s.setSu n v).mc j = s.mc j := rfl
@[simp] theorem State.coll_setSu (s : State) (n : Nat) (v : Su) (j : Nat) : (s.setSu n v).coll j = s.coll j := rfl
@[simp] theorem State.link_setSu (s : State) (n : Nat) (v : Su) (j : Nat) : (s.setSu n v).link j = s.link j := rfl
@[simp] theorem State.obj_setSu (s : State) (n : Nat) (v : Su) (j y : Nat) : (s.setSu n v).obj j y = s.obj j y := rfl
@[simp] theorem State.getN_setSu (s : State) (n : Nat) (v : Su) (j y : Nat) : (s.setSu n v).getN j y = s.getN j y := rfl
@[simp] theorem State.getB_setSu (s : State) (n : Nat) (v : Su) (j y : Nat) : (s.setSu n v).getB j y = s.getB j y := rfl
@[simp] theorem State.getR_setSu (s : State) (n : Nat) (v : Su) (j y : Nat) : (s.setSu n v).getR j y = s.getR j y := rfl
theorem State.su_setSu (s : State) (n : Nat) (v : Su) (j : Nat) :
    (s.setSu n v).su j = if j = n then v else s.su j := look_put _ _ _ _ _
@[simp] theorem State.su_setSu_same (s : State) (n : Nat) (v : Su) : (s.setSu n v).su n = v := look_put_same _ _ _ _
theorem State.su_setSu_other (s : State) (n : Nat) (v : Su) (j : Nat) (h : j ≠ n) :
    (s.setSu n v).su j = s.su j := look_put_other _ _ _ h

/-! ## setColl -/

@[simp] theorem State.pending_setColl (s : State) (i : Nat) (v : Option Coll) : (s.setColl i v).pending = s.pending := rfl
@[simp] theorem State.free_setColl (s : State) (i : Nat) (v : Option Coll) : (s.setColl i v).free = s.free := rfl
@[simp] theorem State.sent_setColl (s : State) (i : Nat) (v : Option Coll) : (s.setColl i v).sent = s.sent := rfl
@[simp] theorem State.objs_setColl (s : State) (i : Nat) (v : Option Coll) : (s.setColl i v).objs = s.objs := rfl
@[simp] theorem State.regs_setColl (s : State) (i : Nat) (v : Option Coll) : (s.setColl i v).regs = s.regs := rfl
@[simp] theorem State.mem_setColl (s : State) (i : Nat) (v : Option Coll) : (s.setColl i v).mem = s.mem := rfl
@[simp] theorem State.bad_setColl (s : State) (i : Nat) (v : Option Coll) : (s.setColl i v).bad = s.bad := rfl
@[simp] theorem State.tiers_setColl (s : State) (i : Nat) (v : Option Coll) : (s.setColl i v).tiers = s.tiers := rfl
@[simp] theorem State.scrubExt_setColl (s : State) (i : Nat) (v : Option Coll) : (s.setColl i v).scrubExt = s.scrubExt := rfl
@[simp] theorem State.cores_setColl (s : State) (i : Nat) (v : Option Coll) : (s.setColl i v).cores = s.cores := rfl
@[simp] theorem State.rows_setColl (s : State) (i : Nat) (v : Option Coll) : (s.setColl i v).rows = s.rows := rfl
@[simp] theorem State.bays_setColl (s : State) (i : Nat) (v : Option Coll) : (s.setColl i v).bays = s.bays := rfl
@[simp] theorem State.parts_setColl (s : State) (i : Nat) (v : Option Coll) : (s.setColl i v).parts = s.parts := rfl
@[simp] theorem State.ctxs_setColl (s : State) (i : Nat) (v : Option Coll) : (s.setColl i v).ctxs = s.ctxs := rfl
@[simp] theorem State.queues_setColl (s : State) (i : Nat) (v : Option Coll) : (s.setColl i v).queues = s.queues := rfl
@[simp] theorem State.ports_setColl (s : State) (i : Nat) (v : Option Coll) : (s.setColl i v).ports = s.ports := rfl
@[simp] theorem State.mcs_setColl (s : State) (i : Nat) (v : Option Coll) : (s.setColl i v).mcs = s.mcs := rfl
@[simp] theorem State.sus_setColl (s : State) (i : Nat) (v : Option Coll) : (s.setColl i v).sus = s.sus := rfl
@[simp] theorem State.links_setColl (s : State) (i : Nat) (v : Option Coll) : (s.setColl i v).links = s.links := rfl
@[simp] theorem State.net_setColl (s : State) (i : Nat) (v : Option Coll) : (s.setColl i v).net = s.net := rfl
@[simp] theorem State.dict_setColl (s : State) (i : Nat) (v : Option Coll) : (s.setColl i v).dict = s.dict := rfl
@[simp] theorem State.scribe_setColl (s : State) (i : Nat) (v : Option Coll) : (s.setColl i v).scribe = s.scribe := rfl
@[simp] theorem State.raising_setColl (s : State) (i : Nat) (v : Option Coll) : (s.setColl i v).raising = s.raising := rfl
@[simp] theorem State.fw_setColl (s : State) (i : Nat) (v : Option Coll) : (s.setColl i v).fw = s.fw := rfl
@[simp] theorem State.sec_setColl (s : State) (i : Nat) (v : Option Coll) : (s.setColl i v).sec = s.sec := rfl
@[simp] theorem State.power_setColl (s : State) (i : Nat) (v : Option Coll) : (s.setColl i v).power = s.power := rfl
@[simp] theorem State.clock_setColl (s : State) (i : Nat) (v : Option Coll) : (s.setColl i v).clock = s.clock := rfl
@[simp] theorem State.pins_setColl (s : State) (i : Nat) (v : Option Coll) : (s.setColl i v).pins = s.pins := rfl
@[simp] theorem State.fuses_setColl (s : State) (i : Nat) (v : Option Coll) : (s.setColl i v).fuses = s.fuses := rfl
@[simp] theorem State.core_setColl (s : State) (i : Nat) (v : Option Coll) (j : Nat) : (s.setColl i v).core j = s.core j := rfl
@[simp] theorem State.row_setColl (s : State) (i : Nat) (v : Option Coll) (j : Nat) : (s.setColl i v).row j = s.row j := rfl
@[simp] theorem State.bay_setColl (s : State) (i : Nat) (v : Option Coll) (j : Nat) : (s.setColl i v).bay j = s.bay j := rfl
@[simp] theorem State.part_setColl (s : State) (i : Nat) (v : Option Coll) (j : Nat) : (s.setColl i v).part j = s.part j := rfl
@[simp] theorem State.ctx_setColl (s : State) (i : Nat) (v : Option Coll) (j : Nat) : (s.setColl i v).ctx j = s.ctx j := rfl
@[simp] theorem State.queue_setColl (s : State) (i : Nat) (v : Option Coll) (j : Nat) : (s.setColl i v).queue j = s.queue j := rfl
@[simp] theorem State.port_setColl (s : State) (i : Nat) (v : Option Coll) (j : Nat) : (s.setColl i v).port j = s.port j := rfl
@[simp] theorem State.mc_setColl (s : State) (i : Nat) (v : Option Coll) (j : Nat) : (s.setColl i v).mc j = s.mc j := rfl
@[simp] theorem State.su_setColl (s : State) (i : Nat) (v : Option Coll) (j : Nat) : (s.setColl i v).su j = s.su j := rfl
@[simp] theorem State.link_setColl (s : State) (i : Nat) (v : Option Coll) (j : Nat) : (s.setColl i v).link j = s.link j := rfl
@[simp] theorem State.obj_setColl (s : State) (i : Nat) (v : Option Coll) (j y : Nat) : (s.setColl i v).obj j y = s.obj j y := rfl
@[simp] theorem State.getN_setColl (s : State) (i : Nat) (v : Option Coll) (j y : Nat) : (s.setColl i v).getN j y = s.getN j y := rfl
@[simp] theorem State.getB_setColl (s : State) (i : Nat) (v : Option Coll) (j y : Nat) : (s.setColl i v).getB j y = s.getB j y := rfl
@[simp] theorem State.getR_setColl (s : State) (i : Nat) (v : Option Coll) (j y : Nat) : (s.setColl i v).getR j y = s.getR j y := rfl
theorem State.coll_setColl (s : State) (i : Nat) (v : Option Coll) (j : Nat) :
    (s.setColl i v).coll j = if j = i then v else s.coll j := look_put _ _ _ _ _
@[simp] theorem State.coll_setColl_same (s : State) (i : Nat) (v : Option Coll) : (s.setColl i v).coll i = v := look_put_same _ _ _ _
theorem State.coll_setColl_other (s : State) (i : Nat) (v : Option Coll) (j : Nat) (h : j ≠ i) :
    (s.setColl i v).coll j = s.coll j := look_put_other _ _ _ h

/-! ## setLink -/

@[simp] theorem State.pending_setLink (s : State) (l : Nat) (v : Link) : (s.setLink l v).pending = s.pending := rfl
@[simp] theorem State.free_setLink (s : State) (l : Nat) (v : Link) : (s.setLink l v).free = s.free := rfl
@[simp] theorem State.sent_setLink (s : State) (l : Nat) (v : Link) : (s.setLink l v).sent = s.sent := rfl
@[simp] theorem State.objs_setLink (s : State) (l : Nat) (v : Link) : (s.setLink l v).objs = s.objs := rfl
@[simp] theorem State.regs_setLink (s : State) (l : Nat) (v : Link) : (s.setLink l v).regs = s.regs := rfl
@[simp] theorem State.mem_setLink (s : State) (l : Nat) (v : Link) : (s.setLink l v).mem = s.mem := rfl
@[simp] theorem State.bad_setLink (s : State) (l : Nat) (v : Link) : (s.setLink l v).bad = s.bad := rfl
@[simp] theorem State.tiers_setLink (s : State) (l : Nat) (v : Link) : (s.setLink l v).tiers = s.tiers := rfl
@[simp] theorem State.scrubExt_setLink (s : State) (l : Nat) (v : Link) : (s.setLink l v).scrubExt = s.scrubExt := rfl
@[simp] theorem State.cores_setLink (s : State) (l : Nat) (v : Link) : (s.setLink l v).cores = s.cores := rfl
@[simp] theorem State.rows_setLink (s : State) (l : Nat) (v : Link) : (s.setLink l v).rows = s.rows := rfl
@[simp] theorem State.bays_setLink (s : State) (l : Nat) (v : Link) : (s.setLink l v).bays = s.bays := rfl
@[simp] theorem State.parts_setLink (s : State) (l : Nat) (v : Link) : (s.setLink l v).parts = s.parts := rfl
@[simp] theorem State.ctxs_setLink (s : State) (l : Nat) (v : Link) : (s.setLink l v).ctxs = s.ctxs := rfl
@[simp] theorem State.queues_setLink (s : State) (l : Nat) (v : Link) : (s.setLink l v).queues = s.queues := rfl
@[simp] theorem State.ports_setLink (s : State) (l : Nat) (v : Link) : (s.setLink l v).ports = s.ports := rfl
@[simp] theorem State.mcs_setLink (s : State) (l : Nat) (v : Link) : (s.setLink l v).mcs = s.mcs := rfl
@[simp] theorem State.sus_setLink (s : State) (l : Nat) (v : Link) : (s.setLink l v).sus = s.sus := rfl
@[simp] theorem State.colls_setLink (s : State) (l : Nat) (v : Link) : (s.setLink l v).colls = s.colls := rfl
@[simp] theorem State.net_setLink (s : State) (l : Nat) (v : Link) : (s.setLink l v).net = s.net := rfl
@[simp] theorem State.dict_setLink (s : State) (l : Nat) (v : Link) : (s.setLink l v).dict = s.dict := rfl
@[simp] theorem State.scribe_setLink (s : State) (l : Nat) (v : Link) : (s.setLink l v).scribe = s.scribe := rfl
@[simp] theorem State.raising_setLink (s : State) (l : Nat) (v : Link) : (s.setLink l v).raising = s.raising := rfl
@[simp] theorem State.fw_setLink (s : State) (l : Nat) (v : Link) : (s.setLink l v).fw = s.fw := rfl
@[simp] theorem State.sec_setLink (s : State) (l : Nat) (v : Link) : (s.setLink l v).sec = s.sec := rfl
@[simp] theorem State.power_setLink (s : State) (l : Nat) (v : Link) : (s.setLink l v).power = s.power := rfl
@[simp] theorem State.clock_setLink (s : State) (l : Nat) (v : Link) : (s.setLink l v).clock = s.clock := rfl
@[simp] theorem State.pins_setLink (s : State) (l : Nat) (v : Link) : (s.setLink l v).pins = s.pins := rfl
@[simp] theorem State.fuses_setLink (s : State) (l : Nat) (v : Link) : (s.setLink l v).fuses = s.fuses := rfl
@[simp] theorem State.core_setLink (s : State) (l : Nat) (v : Link) (j : Nat) : (s.setLink l v).core j = s.core j := rfl
@[simp] theorem State.row_setLink (s : State) (l : Nat) (v : Link) (j : Nat) : (s.setLink l v).row j = s.row j := rfl
@[simp] theorem State.bay_setLink (s : State) (l : Nat) (v : Link) (j : Nat) : (s.setLink l v).bay j = s.bay j := rfl
@[simp] theorem State.part_setLink (s : State) (l : Nat) (v : Link) (j : Nat) : (s.setLink l v).part j = s.part j := rfl
@[simp] theorem State.ctx_setLink (s : State) (l : Nat) (v : Link) (j : Nat) : (s.setLink l v).ctx j = s.ctx j := rfl
@[simp] theorem State.queue_setLink (s : State) (l : Nat) (v : Link) (j : Nat) : (s.setLink l v).queue j = s.queue j := rfl
@[simp] theorem State.port_setLink (s : State) (l : Nat) (v : Link) (j : Nat) : (s.setLink l v).port j = s.port j := rfl
@[simp] theorem State.mc_setLink (s : State) (l : Nat) (v : Link) (j : Nat) : (s.setLink l v).mc j = s.mc j := rfl
@[simp] theorem State.su_setLink (s : State) (l : Nat) (v : Link) (j : Nat) : (s.setLink l v).su j = s.su j := rfl
@[simp] theorem State.coll_setLink (s : State) (l : Nat) (v : Link) (j : Nat) : (s.setLink l v).coll j = s.coll j := rfl
@[simp] theorem State.obj_setLink (s : State) (l : Nat) (v : Link) (j y : Nat) : (s.setLink l v).obj j y = s.obj j y := rfl
@[simp] theorem State.getN_setLink (s : State) (l : Nat) (v : Link) (j y : Nat) : (s.setLink l v).getN j y = s.getN j y := rfl
@[simp] theorem State.getB_setLink (s : State) (l : Nat) (v : Link) (j y : Nat) : (s.setLink l v).getB j y = s.getB j y := rfl
@[simp] theorem State.getR_setLink (s : State) (l : Nat) (v : Link) (j y : Nat) : (s.setLink l v).getR j y = s.getR j y := rfl
theorem State.link_setLink (s : State) (l : Nat) (v : Link) (j : Nat) :
    (s.setLink l v).link j = if j = l then v else s.link j := look_put _ _ _ _ _
@[simp] theorem State.link_setLink_same (s : State) (l : Nat) (v : Link) : (s.setLink l v).link l = v := look_put_same _ _ _ _
theorem State.link_setLink_other (s : State) (l : Nat) (v : Link) (j : Nat) (h : j ≠ l) :
    (s.setLink l v).link j = s.link j := look_put_other _ _ _ h

/-! ## setObj -/

@[simp] theorem State.pending_setObj (s : State) (i u : Nat) (v : Val) : (s.setObj i u v).pending = s.pending := rfl
@[simp] theorem State.free_setObj (s : State) (i u : Nat) (v : Val) : (s.setObj i u v).free = s.free := rfl
@[simp] theorem State.sent_setObj (s : State) (i u : Nat) (v : Val) : (s.setObj i u v).sent = s.sent := rfl
@[simp] theorem State.regs_setObj (s : State) (i u : Nat) (v : Val) : (s.setObj i u v).regs = s.regs := rfl
@[simp] theorem State.mem_setObj (s : State) (i u : Nat) (v : Val) : (s.setObj i u v).mem = s.mem := rfl
@[simp] theorem State.bad_setObj (s : State) (i u : Nat) (v : Val) : (s.setObj i u v).bad = s.bad := rfl
@[simp] theorem State.tiers_setObj (s : State) (i u : Nat) (v : Val) : (s.setObj i u v).tiers = s.tiers := rfl
@[simp] theorem State.scrubExt_setObj (s : State) (i u : Nat) (v : Val) : (s.setObj i u v).scrubExt = s.scrubExt := rfl
@[simp] theorem State.cores_setObj (s : State) (i u : Nat) (v : Val) : (s.setObj i u v).cores = s.cores := rfl
@[simp] theorem State.rows_setObj (s : State) (i u : Nat) (v : Val) : (s.setObj i u v).rows = s.rows := rfl
@[simp] theorem State.bays_setObj (s : State) (i u : Nat) (v : Val) : (s.setObj i u v).bays = s.bays := rfl
@[simp] theorem State.parts_setObj (s : State) (i u : Nat) (v : Val) : (s.setObj i u v).parts = s.parts := rfl
@[simp] theorem State.ctxs_setObj (s : State) (i u : Nat) (v : Val) : (s.setObj i u v).ctxs = s.ctxs := rfl
@[simp] theorem State.queues_setObj (s : State) (i u : Nat) (v : Val) : (s.setObj i u v).queues = s.queues := rfl
@[simp] theorem State.ports_setObj (s : State) (i u : Nat) (v : Val) : (s.setObj i u v).ports = s.ports := rfl
@[simp] theorem State.mcs_setObj (s : State) (i u : Nat) (v : Val) : (s.setObj i u v).mcs = s.mcs := rfl
@[simp] theorem State.sus_setObj (s : State) (i u : Nat) (v : Val) : (s.setObj i u v).sus = s.sus := rfl
@[simp] theorem State.colls_setObj (s : State) (i u : Nat) (v : Val) : (s.setObj i u v).colls = s.colls := rfl
@[simp] theorem State.links_setObj (s : State) (i u : Nat) (v : Val) : (s.setObj i u v).links = s.links := rfl
@[simp] theorem State.net_setObj (s : State) (i u : Nat) (v : Val) : (s.setObj i u v).net = s.net := rfl
@[simp] theorem State.dict_setObj (s : State) (i u : Nat) (v : Val) : (s.setObj i u v).dict = s.dict := rfl
@[simp] theorem State.scribe_setObj (s : State) (i u : Nat) (v : Val) : (s.setObj i u v).scribe = s.scribe := rfl
@[simp] theorem State.raising_setObj (s : State) (i u : Nat) (v : Val) : (s.setObj i u v).raising = s.raising := rfl
@[simp] theorem State.fw_setObj (s : State) (i u : Nat) (v : Val) : (s.setObj i u v).fw = s.fw := rfl
@[simp] theorem State.sec_setObj (s : State) (i u : Nat) (v : Val) : (s.setObj i u v).sec = s.sec := rfl
@[simp] theorem State.power_setObj (s : State) (i u : Nat) (v : Val) : (s.setObj i u v).power = s.power := rfl
@[simp] theorem State.clock_setObj (s : State) (i u : Nat) (v : Val) : (s.setObj i u v).clock = s.clock := rfl
@[simp] theorem State.pins_setObj (s : State) (i u : Nat) (v : Val) : (s.setObj i u v).pins = s.pins := rfl
@[simp] theorem State.fuses_setObj (s : State) (i u : Nat) (v : Val) : (s.setObj i u v).fuses = s.fuses := rfl
@[simp] theorem State.core_setObj (s : State) (i u : Nat) (v : Val) (j : Nat) : (s.setObj i u v).core j = s.core j := rfl
@[simp] theorem State.row_setObj (s : State) (i u : Nat) (v : Val) (j : Nat) : (s.setObj i u v).row j = s.row j := rfl
@[simp] theorem State.bay_setObj (s : State) (i u : Nat) (v : Val) (j : Nat) : (s.setObj i u v).bay j = s.bay j := rfl
@[simp] theorem State.part_setObj (s : State) (i u : Nat) (v : Val) (j : Nat) : (s.setObj i u v).part j = s.part j := rfl
@[simp] theorem State.ctx_setObj (s : State) (i u : Nat) (v : Val) (j : Nat) : (s.setObj i u v).ctx j = s.ctx j := rfl
@[simp] theorem State.queue_setObj (s : State) (i u : Nat) (v : Val) (j : Nat) : (s.setObj i u v).queue j = s.queue j := rfl
@[simp] theorem State.port_setObj (s : State) (i u : Nat) (v : Val) (j : Nat) : (s.setObj i u v).port j = s.port j := rfl
@[simp] theorem State.mc_setObj (s : State) (i u : Nat) (v : Val) (j : Nat) : (s.setObj i u v).mc j = s.mc j := rfl
@[simp] theorem State.su_setObj (s : State) (i u : Nat) (v : Val) (j : Nat) : (s.setObj i u v).su j = s.su j := rfl
@[simp] theorem State.coll_setObj (s : State) (i u : Nat) (v : Val) (j : Nat) : (s.setObj i u v).coll j = s.coll j := rfl
@[simp] theorem State.link_setObj (s : State) (i u : Nat) (v : Val) (j : Nat) : (s.setObj i u v).link j = s.link j := rfl
@[simp] theorem State.getR_setObj (s : State) (i u : Nat) (v : Val) (j y : Nat) : (s.setObj i u v).getR j y = s.getR j y := rfl

/-! ## setN -/

@[simp] theorem State.pending_setN (s : State) (i u n : Nat) : (s.setN i u n).pending = s.pending := rfl
@[simp] theorem State.free_setN (s : State) (i u n : Nat) : (s.setN i u n).free = s.free := rfl
@[simp] theorem State.sent_setN (s : State) (i u n : Nat) : (s.setN i u n).sent = s.sent := rfl
@[simp] theorem State.regs_setN (s : State) (i u n : Nat) : (s.setN i u n).regs = s.regs := rfl
@[simp] theorem State.mem_setN (s : State) (i u n : Nat) : (s.setN i u n).mem = s.mem := rfl
@[simp] theorem State.bad_setN (s : State) (i u n : Nat) : (s.setN i u n).bad = s.bad := rfl
@[simp] theorem State.tiers_setN (s : State) (i u n : Nat) : (s.setN i u n).tiers = s.tiers := rfl
@[simp] theorem State.scrubExt_setN (s : State) (i u n : Nat) : (s.setN i u n).scrubExt = s.scrubExt := rfl
@[simp] theorem State.cores_setN (s : State) (i u n : Nat) : (s.setN i u n).cores = s.cores := rfl
@[simp] theorem State.rows_setN (s : State) (i u n : Nat) : (s.setN i u n).rows = s.rows := rfl
@[simp] theorem State.bays_setN (s : State) (i u n : Nat) : (s.setN i u n).bays = s.bays := rfl
@[simp] theorem State.parts_setN (s : State) (i u n : Nat) : (s.setN i u n).parts = s.parts := rfl
@[simp] theorem State.ctxs_setN (s : State) (i u n : Nat) : (s.setN i u n).ctxs = s.ctxs := rfl
@[simp] theorem State.queues_setN (s : State) (i u n : Nat) : (s.setN i u n).queues = s.queues := rfl
@[simp] theorem State.ports_setN (s : State) (i u n : Nat) : (s.setN i u n).ports = s.ports := rfl
@[simp] theorem State.mcs_setN (s : State) (i u n : Nat) : (s.setN i u n).mcs = s.mcs := rfl
@[simp] theorem State.sus_setN (s : State) (i u n : Nat) : (s.setN i u n).sus = s.sus := rfl
@[simp] theorem State.colls_setN (s : State) (i u n : Nat) : (s.setN i u n).colls = s.colls := rfl
@[simp] theorem State.links_setN (s : State) (i u n : Nat) : (s.setN i u n).links = s.links := rfl
@[simp] theorem State.net_setN (s : State) (i u n : Nat) : (s.setN i u n).net = s.net := rfl
@[simp] theorem State.dict_setN (s : State) (i u n : Nat) : (s.setN i u n).dict = s.dict := rfl
@[simp] theorem State.scribe_setN (s : State) (i u n : Nat) : (s.setN i u n).scribe = s.scribe := rfl
@[simp] theorem State.raising_setN (s : State) (i u n : Nat) : (s.setN i u n).raising = s.raising := rfl
@[simp] theorem State.fw_setN (s : State) (i u n : Nat) : (s.setN i u n).fw = s.fw := rfl
@[simp] theorem State.sec_setN (s : State) (i u n : Nat) : (s.setN i u n).sec = s.sec := rfl
@[simp] theorem State.power_setN (s : State) (i u n : Nat) : (s.setN i u n).power = s.power := rfl
@[simp] theorem State.clock_setN (s : State) (i u n : Nat) : (s.setN i u n).clock = s.clock := rfl
@[simp] theorem State.pins_setN (s : State) (i u n : Nat) : (s.setN i u n).pins = s.pins := rfl
@[simp] theorem State.fuses_setN (s : State) (i u n : Nat) : (s.setN i u n).fuses = s.fuses := rfl
@[simp] theorem State.core_setN (s : State) (i u n : Nat) (j : Nat) : (s.setN i u n).core j = s.core j := rfl
@[simp] theorem State.row_setN (s : State) (i u n : Nat) (j : Nat) : (s.setN i u n).row j = s.row j := rfl
@[simp] theorem State.bay_setN (s : State) (i u n : Nat) (j : Nat) : (s.setN i u n).bay j = s.bay j := rfl
@[simp] theorem State.part_setN (s : State) (i u n : Nat) (j : Nat) : (s.setN i u n).part j = s.part j := rfl
@[simp] theorem State.ctx_setN (s : State) (i u n : Nat) (j : Nat) : (s.setN i u n).ctx j = s.ctx j := rfl
@[simp] theorem State.queue_setN (s : State) (i u n : Nat) (j : Nat) : (s.setN i u n).queue j = s.queue j := rfl
@[simp] theorem State.port_setN (s : State) (i u n : Nat) (j : Nat) : (s.setN i u n).port j = s.port j := rfl
@[simp] theorem State.mc_setN (s : State) (i u n : Nat) (j : Nat) : (s.setN i u n).mc j = s.mc j := rfl
@[simp] theorem State.su_setN (s : State) (i u n : Nat) (j : Nat) : (s.setN i u n).su j = s.su j := rfl
@[simp] theorem State.coll_setN (s : State) (i u n : Nat) (j : Nat) : (s.setN i u n).coll j = s.coll j := rfl
@[simp] theorem State.link_setN (s : State) (i u n : Nat) (j : Nat) : (s.setN i u n).link j = s.link j := rfl
@[simp] theorem State.getR_setN (s : State) (i u n : Nat) (j y : Nat) : (s.setN i u n).getR j y = s.getR j y := rfl

/-! ## setB -/

@[simp] theorem State.pending_setB (s : State) (i u : Nat) (b : Bytes) : (s.setB i u b).pending = s.pending := rfl
@[simp] theorem State.free_setB (s : State) (i u : Nat) (b : Bytes) : (s.setB i u b).free = s.free := rfl
@[simp] theorem State.sent_setB (s : State) (i u : Nat) (b : Bytes) : (s.setB i u b).sent = s.sent := rfl
@[simp] theorem State.regs_setB (s : State) (i u : Nat) (b : Bytes) : (s.setB i u b).regs = s.regs := rfl
@[simp] theorem State.mem_setB (s : State) (i u : Nat) (b : Bytes) : (s.setB i u b).mem = s.mem := rfl
@[simp] theorem State.bad_setB (s : State) (i u : Nat) (b : Bytes) : (s.setB i u b).bad = s.bad := rfl
@[simp] theorem State.tiers_setB (s : State) (i u : Nat) (b : Bytes) : (s.setB i u b).tiers = s.tiers := rfl
@[simp] theorem State.scrubExt_setB (s : State) (i u : Nat) (b : Bytes) : (s.setB i u b).scrubExt = s.scrubExt := rfl
@[simp] theorem State.cores_setB (s : State) (i u : Nat) (b : Bytes) : (s.setB i u b).cores = s.cores := rfl
@[simp] theorem State.rows_setB (s : State) (i u : Nat) (b : Bytes) : (s.setB i u b).rows = s.rows := rfl
@[simp] theorem State.bays_setB (s : State) (i u : Nat) (b : Bytes) : (s.setB i u b).bays = s.bays := rfl
@[simp] theorem State.parts_setB (s : State) (i u : Nat) (b : Bytes) : (s.setB i u b).parts = s.parts := rfl
@[simp] theorem State.ctxs_setB (s : State) (i u : Nat) (b : Bytes) : (s.setB i u b).ctxs = s.ctxs := rfl
@[simp] theorem State.queues_setB (s : State) (i u : Nat) (b : Bytes) : (s.setB i u b).queues = s.queues := rfl
@[simp] theorem State.ports_setB (s : State) (i u : Nat) (b : Bytes) : (s.setB i u b).ports = s.ports := rfl
@[simp] theorem State.mcs_setB (s : State) (i u : Nat) (b : Bytes) : (s.setB i u b).mcs = s.mcs := rfl
@[simp] theorem State.sus_setB (s : State) (i u : Nat) (b : Bytes) : (s.setB i u b).sus = s.sus := rfl
@[simp] theorem State.colls_setB (s : State) (i u : Nat) (b : Bytes) : (s.setB i u b).colls = s.colls := rfl
@[simp] theorem State.links_setB (s : State) (i u : Nat) (b : Bytes) : (s.setB i u b).links = s.links := rfl
@[simp] theorem State.net_setB (s : State) (i u : Nat) (b : Bytes) : (s.setB i u b).net = s.net := rfl
@[simp] theorem State.dict_setB (s : State) (i u : Nat) (b : Bytes) : (s.setB i u b).dict = s.dict := rfl
@[simp] theorem State.scribe_setB (s : State) (i u : Nat) (b : Bytes) : (s.setB i u b).scribe = s.scribe := rfl
@[simp] theorem State.raising_setB (s : State) (i u : Nat) (b : Bytes) : (s.setB i u b).raising = s.raising := rfl
@[simp] theorem State.fw_setB (s : State) (i u : Nat) (b : Bytes) : (s.setB i u b).fw = s.fw := rfl
@[simp] theorem State.sec_setB (s : State) (i u : Nat) (b : Bytes) : (s.setB i u b).sec = s.sec := rfl
@[simp] theorem State.power_setB (s : State) (i u : Nat) (b : Bytes) : (s.setB i u b).power = s.power := rfl
@[simp] theorem State.clock_setB (s : State) (i u : Nat) (b : Bytes) : (s.setB i u b).clock = s.clock := rfl
@[simp] theorem State.pins_setB (s : State) (i u : Nat) (b : Bytes) : (s.setB i u b).pins = s.pins := rfl
@[simp] theorem State.fuses_setB (s : State) (i u : Nat) (b : Bytes) : (s.setB i u b).fuses = s.fuses := rfl
@[simp] theorem State.core_setB (s : State) (i u : Nat) (b : Bytes) (j : Nat) : (s.setB i u b).core j = s.core j := rfl
@[simp] theorem State.row_setB (s : State) (i u : Nat) (b : Bytes) (j : Nat) : (s.setB i u b).row j = s.row j := rfl
@[simp] theorem State.bay_setB (s : State) (i u : Nat) (b : Bytes) (j : Nat) : (s.setB i u b).bay j = s.bay j := rfl
@[simp] theorem State.part_setB (s : State) (i u : Nat) (b : Bytes) (j : Nat) : (s.setB i u b).part j = s.part j := rfl
@[simp] theorem State.ctx_setB (s : State) (i u : Nat) (b : Bytes) (j : Nat) : (s.setB i u b).ctx j = s.ctx j := rfl
@[simp] theorem State.queue_setB (s : State) (i u : Nat) (b : Bytes) (j : Nat) : (s.setB i u b).queue j = s.queue j := rfl
@[simp] theorem State.port_setB (s : State) (i u : Nat) (b : Bytes) (j : Nat) : (s.setB i u b).port j = s.port j := rfl
@[simp] theorem State.mc_setB (s : State) (i u : Nat) (b : Bytes) (j : Nat) : (s.setB i u b).mc j = s.mc j := rfl
@[simp] theorem State.su_setB (s : State) (i u : Nat) (b : Bytes) (j : Nat) : (s.setB i u b).su j = s.su j := rfl
@[simp] theorem State.coll_setB (s : State) (i u : Nat) (b : Bytes) (j : Nat) : (s.setB i u b).coll j = s.coll j := rfl
@[simp] theorem State.link_setB (s : State) (i u : Nat) (b : Bytes) (j : Nat) : (s.setB i u b).link j = s.link j := rfl
@[simp] theorem State.getR_setB (s : State) (i u : Nat) (b : Bytes) (j y : Nat) : (s.setB i u b).getR j y = s.getR j y := rfl

/-! ## count -/

@[simp] theorem State.pending_count (s : State) (i u w k : Nat) : (s.count i u w k).pending = s.pending := rfl
@[simp] theorem State.free_count (s : State) (i u w k : Nat) : (s.count i u w k).free = s.free := rfl
@[simp] theorem State.sent_count (s : State) (i u w k : Nat) : (s.count i u w k).sent = s.sent := rfl
@[simp] theorem State.regs_count (s : State) (i u w k : Nat) : (s.count i u w k).regs = s.regs := rfl
@[simp] theorem State.mem_count (s : State) (i u w k : Nat) : (s.count i u w k).mem = s.mem := rfl
@[simp] theorem State.bad_count (s : State) (i u w k : Nat) : (s.count i u w k).bad = s.bad := rfl
@[simp] theorem State.tiers_count (s : State) (i u w k : Nat) : (s.count i u w k).tiers = s.tiers := rfl
@[simp] theorem State.scrubExt_count (s : State) (i u w k : Nat) : (s.count i u w k).scrubExt = s.scrubExt := rfl
@[simp] theorem State.cores_count (s : State) (i u w k : Nat) : (s.count i u w k).cores = s.cores := rfl
@[simp] theorem State.rows_count (s : State) (i u w k : Nat) : (s.count i u w k).rows = s.rows := rfl
@[simp] theorem State.bays_count (s : State) (i u w k : Nat) : (s.count i u w k).bays = s.bays := rfl
@[simp] theorem State.parts_count (s : State) (i u w k : Nat) : (s.count i u w k).parts = s.parts := rfl
@[simp] theorem State.ctxs_count (s : State) (i u w k : Nat) : (s.count i u w k).ctxs = s.ctxs := rfl
@[simp] theorem State.queues_count (s : State) (i u w k : Nat) : (s.count i u w k).queues = s.queues := rfl
@[simp] theorem State.ports_count (s : State) (i u w k : Nat) : (s.count i u w k).ports = s.ports := rfl
@[simp] theorem State.mcs_count (s : State) (i u w k : Nat) : (s.count i u w k).mcs = s.mcs := rfl
@[simp] theorem State.sus_count (s : State) (i u w k : Nat) : (s.count i u w k).sus = s.sus := rfl
@[simp] theorem State.colls_count (s : State) (i u w k : Nat) : (s.count i u w k).colls = s.colls := rfl
@[simp] theorem State.links_count (s : State) (i u w k : Nat) : (s.count i u w k).links = s.links := rfl
@[simp] theorem State.net_count (s : State) (i u w k : Nat) : (s.count i u w k).net = s.net := rfl
@[simp] theorem State.dict_count (s : State) (i u w k : Nat) : (s.count i u w k).dict = s.dict := rfl
@[simp] theorem State.scribe_count (s : State) (i u w k : Nat) : (s.count i u w k).scribe = s.scribe := rfl
@[simp] theorem State.raising_count (s : State) (i u w k : Nat) : (s.count i u w k).raising = s.raising := rfl
@[simp] theorem State.fw_count (s : State) (i u w k : Nat) : (s.count i u w k).fw = s.fw := rfl
@[simp] theorem State.sec_count (s : State) (i u w k : Nat) : (s.count i u w k).sec = s.sec := rfl
@[simp] theorem State.power_count (s : State) (i u w k : Nat) : (s.count i u w k).power = s.power := rfl
@[simp] theorem State.clock_count (s : State) (i u w k : Nat) : (s.count i u w k).clock = s.clock := rfl
@[simp] theorem State.pins_count (s : State) (i u w k : Nat) : (s.count i u w k).pins = s.pins := rfl
@[simp] theorem State.fuses_count (s : State) (i u w k : Nat) : (s.count i u w k).fuses = s.fuses := rfl
@[simp] theorem State.core_count (s : State) (i u w k : Nat) (j : Nat) : (s.count i u w k).core j = s.core j := rfl
@[simp] theorem State.row_count (s : State) (i u w k : Nat) (j : Nat) : (s.count i u w k).row j = s.row j := rfl
@[simp] theorem State.bay_count (s : State) (i u w k : Nat) (j : Nat) : (s.count i u w k).bay j = s.bay j := rfl
@[simp] theorem State.part_count (s : State) (i u w k : Nat) (j : Nat) : (s.count i u w k).part j = s.part j := rfl
@[simp] theorem State.ctx_count (s : State) (i u w k : Nat) (j : Nat) : (s.count i u w k).ctx j = s.ctx j := rfl
@[simp] theorem State.queue_count (s : State) (i u w k : Nat) (j : Nat) : (s.count i u w k).queue j = s.queue j := rfl
@[simp] theorem State.port_count (s : State) (i u w k : Nat) (j : Nat) : (s.count i u w k).port j = s.port j := rfl
@[simp] theorem State.mc_count (s : State) (i u w k : Nat) (j : Nat) : (s.count i u w k).mc j = s.mc j := rfl
@[simp] theorem State.su_count (s : State) (i u w k : Nat) (j : Nat) : (s.count i u w k).su j = s.su j := rfl
@[simp] theorem State.coll_count (s : State) (i u w k : Nat) (j : Nat) : (s.count i u w k).coll j = s.coll j := rfl
@[simp] theorem State.link_count (s : State) (i u w k : Nat) (j : Nat) : (s.count i u w k).link j = s.link j := rfl
@[simp] theorem State.getR_count (s : State) (i u w k : Nat) (j y : Nat) : (s.count i u w k).getR j y = s.getR j y := rfl

/-! ## setR -/

@[simp] theorem State.pending_setR (s : State) (n o v : Nat) : (s.setR n o v).pending = s.pending := rfl
@[simp] theorem State.free_setR (s : State) (n o v : Nat) : (s.setR n o v).free = s.free := rfl
@[simp] theorem State.sent_setR (s : State) (n o v : Nat) : (s.setR n o v).sent = s.sent := rfl
@[simp] theorem State.objs_setR (s : State) (n o v : Nat) : (s.setR n o v).objs = s.objs := rfl
@[simp] theorem State.mem_setR (s : State) (n o v : Nat) : (s.setR n o v).mem = s.mem := rfl
@[simp] theorem State.bad_setR (s : State) (n o v : Nat) : (s.setR n o v).bad = s.bad := rfl
@[simp] theorem State.tiers_setR (s : State) (n o v : Nat) : (s.setR n o v).tiers = s.tiers := rfl
@[simp] theorem State.scrubExt_setR (s : State) (n o v : Nat) : (s.setR n o v).scrubExt = s.scrubExt := rfl
@[simp] theorem State.cores_setR (s : State) (n o v : Nat) : (s.setR n o v).cores = s.cores := rfl
@[simp] theorem State.rows_setR (s : State) (n o v : Nat) : (s.setR n o v).rows = s.rows := rfl
@[simp] theorem State.bays_setR (s : State) (n o v : Nat) : (s.setR n o v).bays = s.bays := rfl
@[simp] theorem State.parts_setR (s : State) (n o v : Nat) : (s.setR n o v).parts = s.parts := rfl
@[simp] theorem State.ctxs_setR (s : State) (n o v : Nat) : (s.setR n o v).ctxs = s.ctxs := rfl
@[simp] theorem State.queues_setR (s : State) (n o v : Nat) : (s.setR n o v).queues = s.queues := rfl
@[simp] theorem State.ports_setR (s : State) (n o v : Nat) : (s.setR n o v).ports = s.ports := rfl
@[simp] theorem State.mcs_setR (s : State) (n o v : Nat) : (s.setR n o v).mcs = s.mcs := rfl
@[simp] theorem State.sus_setR (s : State) (n o v : Nat) : (s.setR n o v).sus = s.sus := rfl
@[simp] theorem State.colls_setR (s : State) (n o v : Nat) : (s.setR n o v).colls = s.colls := rfl
@[simp] theorem State.links_setR (s : State) (n o v : Nat) : (s.setR n o v).links = s.links := rfl
@[simp] theorem State.net_setR (s : State) (n o v : Nat) : (s.setR n o v).net = s.net := rfl
@[simp] theorem State.dict_setR (s : State) (n o v : Nat) : (s.setR n o v).dict = s.dict := rfl
@[simp] theorem State.scribe_setR (s : State) (n o v : Nat) : (s.setR n o v).scribe = s.scribe := rfl
@[simp] theorem State.raising_setR (s : State) (n o v : Nat) : (s.setR n o v).raising = s.raising := rfl
@[simp] theorem State.fw_setR (s : State) (n o v : Nat) : (s.setR n o v).fw = s.fw := rfl
@[simp] theorem State.sec_setR (s : State) (n o v : Nat) : (s.setR n o v).sec = s.sec := rfl
@[simp] theorem State.power_setR (s : State) (n o v : Nat) : (s.setR n o v).power = s.power := rfl
@[simp] theorem State.clock_setR (s : State) (n o v : Nat) : (s.setR n o v).clock = s.clock := rfl
@[simp] theorem State.pins_setR (s : State) (n o v : Nat) : (s.setR n o v).pins = s.pins := rfl
@[simp] theorem State.fuses_setR (s : State) (n o v : Nat) : (s.setR n o v).fuses = s.fuses := rfl
@[simp] theorem State.core_setR (s : State) (n o v : Nat) (j : Nat) : (s.setR n o v).core j = s.core j := rfl
@[simp] theorem State.row_setR (s : State) (n o v : Nat) (j : Nat) : (s.setR n o v).row j = s.row j := rfl
@[simp] theorem State.bay_setR (s : State) (n o v : Nat) (j : Nat) : (s.setR n o v).bay j = s.bay j := rfl
@[simp] theorem State.part_setR (s : State) (n o v : Nat) (j : Nat) : (s.setR n o v).part j = s.part j := rfl
@[simp] theorem State.ctx_setR (s : State) (n o v : Nat) (j : Nat) : (s.setR n o v).ctx j = s.ctx j := rfl
@[simp] theorem State.queue_setR (s : State) (n o v : Nat) (j : Nat) : (s.setR n o v).queue j = s.queue j := rfl
@[simp] theorem State.port_setR (s : State) (n o v : Nat) (j : Nat) : (s.setR n o v).port j = s.port j := rfl
@[simp] theorem State.mc_setR (s : State) (n o v : Nat) (j : Nat) : (s.setR n o v).mc j = s.mc j := rfl
@[simp] theorem State.su_setR (s : State) (n o v : Nat) (j : Nat) : (s.setR n o v).su j = s.su j := rfl
@[simp] theorem State.coll_setR (s : State) (n o v : Nat) (j : Nat) : (s.setR n o v).coll j = s.coll j := rfl
@[simp] theorem State.link_setR (s : State) (n o v : Nat) (j : Nat) : (s.setR n o v).link j = s.link j := rfl
@[simp] theorem State.obj_setR (s : State) (n o v : Nat) (j y : Nat) : (s.setR n o v).obj j y = s.obj j y := rfl
@[simp] theorem State.getN_setR (s : State) (n o v : Nat) (j y : Nat) : (s.setR n o v).getN j y = s.getN j y := rfl
@[simp] theorem State.getB_setR (s : State) (n o v : Nat) (j y : Nat) : (s.setR n o v).getB j y = s.getB j y := rfl

/-! ## send -/

@[simp] theorem State.pending_send (s : State) (m : Sent) : (s.send m).pending = s.pending := rfl
@[simp] theorem State.free_send (s : State) (m : Sent) : (s.send m).free = s.free := rfl
@[simp] theorem State.objs_send (s : State) (m : Sent) : (s.send m).objs = s.objs := rfl
@[simp] theorem State.regs_send (s : State) (m : Sent) : (s.send m).regs = s.regs := rfl
@[simp] theorem State.mem_send (s : State) (m : Sent) : (s.send m).mem = s.mem := rfl
@[simp] theorem State.bad_send (s : State) (m : Sent) : (s.send m).bad = s.bad := rfl
@[simp] theorem State.tiers_send (s : State) (m : Sent) : (s.send m).tiers = s.tiers := rfl
@[simp] theorem State.scrubExt_send (s : State) (m : Sent) : (s.send m).scrubExt = s.scrubExt := rfl
@[simp] theorem State.cores_send (s : State) (m : Sent) : (s.send m).cores = s.cores := rfl
@[simp] theorem State.rows_send (s : State) (m : Sent) : (s.send m).rows = s.rows := rfl
@[simp] theorem State.bays_send (s : State) (m : Sent) : (s.send m).bays = s.bays := rfl
@[simp] theorem State.parts_send (s : State) (m : Sent) : (s.send m).parts = s.parts := rfl
@[simp] theorem State.ctxs_send (s : State) (m : Sent) : (s.send m).ctxs = s.ctxs := rfl
@[simp] theorem State.queues_send (s : State) (m : Sent) : (s.send m).queues = s.queues := rfl
@[simp] theorem State.ports_send (s : State) (m : Sent) : (s.send m).ports = s.ports := rfl
@[simp] theorem State.mcs_send (s : State) (m : Sent) : (s.send m).mcs = s.mcs := rfl
@[simp] theorem State.sus_send (s : State) (m : Sent) : (s.send m).sus = s.sus := rfl
@[simp] theorem State.colls_send (s : State) (m : Sent) : (s.send m).colls = s.colls := rfl
@[simp] theorem State.links_send (s : State) (m : Sent) : (s.send m).links = s.links := rfl
@[simp] theorem State.net_send (s : State) (m : Sent) : (s.send m).net = s.net := rfl
@[simp] theorem State.dict_send (s : State) (m : Sent) : (s.send m).dict = s.dict := rfl
@[simp] theorem State.scribe_send (s : State) (m : Sent) : (s.send m).scribe = s.scribe := rfl
@[simp] theorem State.raising_send (s : State) (m : Sent) : (s.send m).raising = s.raising := rfl
@[simp] theorem State.fw_send (s : State) (m : Sent) : (s.send m).fw = s.fw := rfl
@[simp] theorem State.sec_send (s : State) (m : Sent) : (s.send m).sec = s.sec := rfl
@[simp] theorem State.power_send (s : State) (m : Sent) : (s.send m).power = s.power := rfl
@[simp] theorem State.clock_send (s : State) (m : Sent) : (s.send m).clock = s.clock := rfl
@[simp] theorem State.pins_send (s : State) (m : Sent) : (s.send m).pins = s.pins := rfl
@[simp] theorem State.fuses_send (s : State) (m : Sent) : (s.send m).fuses = s.fuses := rfl
@[simp] theorem State.core_send (s : State) (m : Sent) (j : Nat) : (s.send m).core j = s.core j := rfl
@[simp] theorem State.row_send (s : State) (m : Sent) (j : Nat) : (s.send m).row j = s.row j := rfl
@[simp] theorem State.bay_send (s : State) (m : Sent) (j : Nat) : (s.send m).bay j = s.bay j := rfl
@[simp] theorem State.part_send (s : State) (m : Sent) (j : Nat) : (s.send m).part j = s.part j := rfl
@[simp] theorem State.ctx_send (s : State) (m : Sent) (j : Nat) : (s.send m).ctx j = s.ctx j := rfl
@[simp] theorem State.queue_send (s : State) (m : Sent) (j : Nat) : (s.send m).queue j = s.queue j := rfl
@[simp] theorem State.port_send (s : State) (m : Sent) (j : Nat) : (s.send m).port j = s.port j := rfl
@[simp] theorem State.mc_send (s : State) (m : Sent) (j : Nat) : (s.send m).mc j = s.mc j := rfl
@[simp] theorem State.su_send (s : State) (m : Sent) (j : Nat) : (s.send m).su j = s.su j := rfl
@[simp] theorem State.coll_send (s : State) (m : Sent) (j : Nat) : (s.send m).coll j = s.coll j := rfl
@[simp] theorem State.link_send (s : State) (m : Sent) (j : Nat) : (s.send m).link j = s.link j := rfl
@[simp] theorem State.obj_send (s : State) (m : Sent) (j y : Nat) : (s.send m).obj j y = s.obj j y := rfl
@[simp] theorem State.getN_send (s : State) (m : Sent) (j y : Nat) : (s.send m).getN j y = s.getN j y := rfl
@[simp] theorem State.getB_send (s : State) (m : Sent) (j y : Nat) : (s.send m).getB j y = s.getB j y := rfl
@[simp] theorem State.getR_send (s : State) (m : Sent) (j y : Nat) : (s.send m).getR j y = s.getR j y := rfl

/-! ## Objects and registers read back -/

theorem State.obj_setObj (s : State) (i u : Nat) (v : Val) (j w : Nat) :
    (s.setObj i u v).obj j w = if objKey j w = objKey i u then v else s.obj j w := by
  unfold State.obj State.setObj
  by_cases h : objKey j w = objKey i u
  · simp [h]
  · simp only [if_neg h]; exact look_put_ne _ _ _ _ _ _ h

@[simp] theorem State.obj_setObj_same (s : State) (i u : Nat) (v : Val) : (s.setObj i u v).obj i u = v := by
  simp [State.obj_setObj]

@[simp] theorem State.getN_setN_same (s : State) (i u n : Nat) : (s.setN i u n).getN i u = n := by
  simp [State.getN, State.setN]

@[simp] theorem State.getB_setB_same (s : State) (i u : Nat) (b : Bytes) : (s.setB i u b).getB i u = b := by
  simp [State.getB, State.setB]

/-- A number read after another object's number was stored. -/
theorem State.getN_setN_other (s : State) (i u n j w : Nat) (h : objKey j w ≠ objKey i u) :
    (s.setN i u n).getN j w = s.getN j w := by
  simp [State.getN, State.setN, State.obj_setObj, h]

/-- Bytes read after another object's number was stored. -/
theorem State.getB_setN_other (s : State) (i u n j w : Nat) (h : objKey j w ≠ objKey i u) :
    (s.setN i u n).getB j w = s.getB j w := by
  simp [State.getB, State.setN, State.obj_setObj, h]

/-- A number read after another object's bytes were stored. -/
theorem State.getN_setB_other (s : State) (i u : Nat) (b : Bytes) (j w : Nat) (h : objKey j w ≠ objKey i u) :
    (s.setB i u b).getN j w = s.getN j w := by
  simp [State.getN, State.setB, State.obj_setObj, h]

/-- A counter after it is advanced. -/
@[simp] theorem State.getN_count_same (s : State) (i u w k : Nat) :
    (s.count i u w k).getN i u = (s.getN i u + k) % 2 ^ w := by
  simp [State.count]

@[simp] theorem State.getR_setR_same (s : State) (n o v : Nat) : (s.setR n o v).getR n o = v := by
  simp [State.getR, State.setR]

/-- A register read after another was stored. -/
theorem State.getR_setR_other (s : State) (n o v m p : Nat) (h : regKey m p ≠ regKey n o) :
    (s.setR n o v).getR m p = s.getR m p := by
  unfold State.getR State.setR; exact look_put_ne _ _ _ _ _ _ h


end Sys2Proof.Machine
end

