-- ==== Sys2Proof/Laws/Issue.lean ====
section
/-! SUPPORT. A core's issue: all that the shared course of a core command can do. -/

namespace Sys2Proof.Machine

/-- An instruction that is done: its core is what the instruction left, but for its cycles. -/
theorem issue_done {o : Op} {c : Fin 8192} {f : Fields} {s : State} (h : Issues s c o f) (body : Core → Issued) (k : Core)
    (n : Nat) (hb : body (s.core c) = .done k n) : s.Becomes c k (issue o c f s body) := by
  obtain ⟨h1, h2, h3⟩ := h
  exact ⟨s.free + 1, k.cycles + BitVec.ofNat 64 n + Config.stallCycles s.free, by simp [issue, h1, h2, h3, hb, charge]⟩

/-- An instruction that is done, with an effect beyond its core. -/
theorem issue_done_after {o : Op} {c : Fin 8192} {f : Fields} {s : State} (h : Issues s c o f) (body : Core → Issued)
    (after : State → State) (k : Core) (n : Nat) (hb : body (s.core c) = .done k n) :
    ∃ t, s.Becomes c k t ∧ issue o c f s body after = after t := by
  obtain ⟨h1, h2, h3⟩ := h
  exact ⟨charge s c k n, ⟨s.free + 1, k.cycles + BitVec.ofNat 64 n + Config.stallCycles s.free, rfl⟩,
    by simp [issue, h1, h2, h3, hb]⟩

/-- An instruction that faults. -/
theorem issue_fault {o : Op} {c : Fin 8192} {f : Fields} {s : State} (h : Issues s c o f) (body : Core → Issued)
    (after : State → State) (code : Byte) (aux : Half) (hb : body (s.core c) = .fault code aux) :
    issue o c f s body after = s.setCore c ((s.core c).fault code (s.core c).pc aux) := by
  obtain ⟨h1, h2, h3⟩ := h
  simp [issue, h1, h2, h3, hb]

/-- An instruction that stalls. -/
theorem issue_stall {o : Op} {c : Fin 8192} {f : Fields} {s : State} (h : Issues s c o f) (body : Core → Issued)
    (after : State → State) (hb : body (s.core c) = .stall) : issue o c f s body after = s := by
  obtain ⟨h1, h2, h3⟩ := h
  simp [issue, h1, h2, h3, hb]

/-- An instruction whose guard is false: it takes its cycle, or faults where what its registers name is illegal (R100). -/
theorem issue_unguarded {o : Op} {c : Fin 8192} {f : Fields} {s : State} (hr : (s.core c).run = .running)
    (hf : fetch s c = .inr (o, f)) (hg : (s.core c).guarded f = false) (body : Core → Issued) (after : State → State) :
    issue o c f s body after =
      if (s.core c).illegal o f then s.setCore c ((s.core c).fault illegalInstruction (s.core c).pc 0)
      else charge s c (s.core c).next 1 := by
  simp [issue, hr, hf, hg]

/-- All that a core command can do: nothing, a fault at the present instruction, the step of a false guard, or the effect of
its instruction. -/
theorem issue_cases (o : Op) (c : Fin 8192) (f : Fields) (s : State) (body : Core → Issued) (after : State → State) :
    issue o c f s body after = s ∨
    (∃ code aux, issue o c f s body after = s.setCore c ((s.core c).fault code (s.core c).pc aux)) ∨
    issue o c f s body after = charge s c (s.core c).next 1 ∨
    (∃ k n, body (s.core c) = .done k n ∧ Issues s c o f ∧ issue o c f s body after = after (charge s c k n)) := by
  unfold issue
  simp only
  split
  · exact .inl rfl
  · rename_i hr
    split
    · rename_i code aux _; exact .inr (.inl ⟨code, aux, rfl⟩)
    · rename_i o' f' hf
      split
      · exact .inl rfl
      · rename_i hof
        have h1 : o' = o ∧ f' = f := by simpa using hof
        obtain ⟨rfl, rfl⟩ := h1
        split
        · split
          · exact .inr (.inl ⟨illegalInstruction, 0, rfl⟩)
          · exact .inr (.inr (.inl rfl))
        · rename_i hg
          split
          · exact .inl rfl
          · rename_i code aux _; exact .inr (.inl ⟨code, aux, rfl⟩)
          · rename_i k' n hb; exact .inr (.inr (.inr ⟨k', n, hb, ⟨by simpa using hr, hf, by simpa using hg⟩, rfl⟩))

@[simp] theorem Core.getG_zero (k : Core) : k.getG 0 = 0 := rfl
@[simp] theorem Core.setG_zero (k : Core) (v : Word) : k.setG 0 v = k := rfl
@[simp] theorem Core.getP_zero (k : Core) : k.getP 0 = true := rfl
@[simp] theorem Core.setP_zero (k : Core) (v : Bool) : k.setP 0 v = k := rfl

/-- A g register after a write: the value where it is the one written and not g0. -/
theorem Core.getG_setG (k : Core) (r q : BitVec 5) (v : Word) :
    (k.setG r v).getG q = if q = r ∧ r ≠ 0 then v else k.getG q := by
  unfold Core.setG Core.getG
  by_cases hr : r = 0
  · simp [hr]
  · rw [if_neg hr]
    by_cases hq : q = 0
    · rw [if_pos hq, if_pos hq, if_neg (fun h : q = r ∧ r ≠ 0 => hr (h.1 ▸ hq))]
    · have : q.toNat = r.toNat ↔ q = r := BitVec.toNat_inj
      rw [if_neg hq, if_neg hq, look_put]
      by_cases h : q = r
      · rw [if_pos (this.2 h), if_pos ⟨h, hr⟩]
      · rw [if_neg (fun e => h (this.1 e)), if_neg (fun e => h e.1)]

/-- A predicate after a write: the value where it is the one written and not p0. -/
theorem Core.getP_setP (k : Core) (r q : Nat) (v : Bool) :
    (k.setP r v).getP q = if q = r ∧ r ≠ 0 then v else k.getP q := by
  unfold Core.setP Core.getP
  by_cases hr : r = 0
  · simp [hr]
  · by_cases hq : q = 0
    · simp [hr, hq, Ne.symm hr]
    · simp [hr, hq, look_put]

/-- A lane after a v register was written whole. -/
theorem Core.lane_setV (k : Core) (r q : BitVec 5) (xs : List Word) (hx : xs.length = 32) (i : Nat) (hi : i < 32) :
    (k.setV r xs).lane q i = if q = r then xs.getD i 0 else k.lane q i := by
  unfold Core.setV Core.lane
  simp only [look_blit, hx]
  by_cases h : q = r
  · subst h; simp [hi]
  · have : q.toNat ≠ r.toNat := fun e => h (BitVec.eq_of_toNat_eq e)
    rw [if_neg (by omega), if_neg h]

/-! ## Faults and scratchpad accesses -/

theorem lowest_none (xs : List (Bool × Byte)) : lowest xs = none ↔ ∀ x ∈ xs, x.1 = false := by
  induction xs with
  | nil => simp [lowest]
  | cons x xs ih =>
    obtain ⟨b, c⟩ := x
    cases b
    · simp [lowest, ih]
    · simp only [lowest]; cases lowest xs <;> simp

theorem mem_wordsIn (a n w : Nat) : w ∈ wordsIn a n ↔ 16 * w < a + n ∧ a < 16 * w + 16 := by
  unfold wordsIn
  simp only [List.mem_map, List.mem_range]
  constructor
  · rintro ⟨i, hi, rfl⟩; omega
  · rintro ⟨h1, h2⟩; exact ⟨w - a / 16, by omega, by omega⟩

theorem readFault_none {k : Core} {a n al : Nat} (h : k.Accessible a n al) : k.readFault a n al = none := by
  obtain ⟨h1, h2, h3⟩ := h
  unfold Core.readFault
  rw [lowest_none]
  have : scratchSize = 0x18000 := rfl
  simp only [List.mem_cons, List.not_mem_nil, or_false, forall_eq_or_imp, forall_eq, List.any_eq_false, decide_eq_false_iff_not, bne_eq_false_iff_eq, mem_wordsIn, List.contains_iff_mem]
  exact ⟨by omega, h2, fun w hw => h3 w hw.1 hw.2⟩

theorem signed16 (v : Nat) : BitVec.ofInt 32 (signed (8 * 2) v) = (BitVec.ofNat 16 v).signExtend 32 := by
  unfold BitVec.signExtend signed
  congr 1
  rw [BitVec.toInt_eq_toNat_cond]
  simp only [BitVec.toNat_ofNat]
  norm_num
  split <;> split <;> omega

theorem signed8 (v : Nat) : BitVec.ofInt 32 (signed (8 * 1) v) = (BitVec.ofNat 8 v).signExtend 32 := by
  unfold BitVec.signExtend signed
  congr 1
  rw [BitVec.toInt_eq_toNat_cond]
  simp only [BitVec.toNat_ofNat]
  norm_num
  split <;> split <;> omega

theorem readNum_lt (m : List Host.Cell) (a n : Nat) : readNum m a n < 256 ^ n := by
  unfold readNum readBytes
  induction n generalizing a with
  | zero => simp [readMany, leNat]
  | succ n ih =>
    simp only [readMany, leNat]
    have := ih (a + 1)
    have h2 := (look 0 m a).isLt
    rw [Nat.pow_succ]; omega

theorem leBytes_length (n v : Nat) : (leBytes n v).length = n := by
  induction n generalizing v with
  | zero => rfl
  | succ n ih => simp [leBytes, ih]

theorem getD_leBytes (n : Nat) : ∀ v i, i < n → (leBytes n v).getD i 0 = BitVec.ofNat 8 (v / 256 ^ i) := by
  induction n with
  | zero => simp
  | succ n ih =>
    intro v i hi
    cases i with
    | zero => simp [leBytes]
    | succ i => simp only [leBytes, List.getD_cons_succ]; rw [ih _ _ (by omega), Nat.div_div_eq_div_mul, Nat.pow_succ']

theorem lowest_cons_true (c : Byte) (xs) (h : ∀ x ∈ xs, x.1 = true → c ≤ x.2) : lowest ((true, c) :: xs) = some c := by
  have key : ∀ xs : List (Bool × Byte), ∀ d, lowest xs = some d → ∃ x ∈ xs, x.1 = true ∧ x.2 = d := by
    intro xs
    induction xs with
    | nil => simp [lowest]
    | cons x xs ih =>
      obtain ⟨b, e⟩ := x
      intro d hd
      cases b
      · simp only [lowest] at hd; obtain ⟨x, hx, h1, h2⟩ := ih d hd; exact ⟨x, .tail _ hx, h1, h2⟩
      · simp only [lowest] at hd
        split at hd
        · rename_i d' hd'
          simp only [Option.some.injEq] at hd
          split at hd
          · obtain ⟨x, hx, h1, h2⟩ := ih d' hd'; exact ⟨x, .tail _ hx, h1, by rw [h2, hd]⟩
          · exact ⟨_, .head _, rfl, hd⟩
        · simp only [Option.some.injEq] at hd; exact ⟨_, .head _, rfl, hd⟩
  simp only [lowest]
  split
  · rename_i d hd
    obtain ⟨x, hx, h1, rfl⟩ := key xs d hd
    have := h x hx h1
    rw [if_neg (by simpa [BitVec.not_lt] using this)]
  · rfl

theorem mem_of_div (a n w : Nat) (hn : n = 1 ∨ n = 2 ∨ n = 4) (h : a % n = 0) : w ∈ wordsIn a n ↔ w = a / 16 := by
  rw [mem_wordsIn]; rcases hn with rfl | rfl | rfl <;> omega

theorem scalarFault_none {k : Core} {a n : Nat} (hn : 0 < n) (h : k.Accessible a n n) : k.scalarFault a n = none := by
  obtain ⟨h1, h2, h3⟩ := h
  unfold Core.scalarFault
  rw [lowest_none]
  have : scratchSize = 0x18000 := rfl
  simp only [List.mem_cons, List.not_mem_nil, or_false, forall_eq_or_imp, forall_eq, List.any_eq_false, decide_eq_false_iff_not, bne_eq_false_iff_eq, mem_wordsIn, List.contains_iff_mem]
  exact ⟨by omega, h2, fun w hw => h3 w hw.1 hw.2⟩

theorem scalarFault_some (k : Core) (a n : Nat) (hn : n = 1 ∨ n = 2 ∨ n = 4) :
    (0x18000 ≤ a → k.scalarFault a n = some 2) ∧ (a < 0x18000 → a % n ≠ 0 → k.scalarFault a n = some 3) ∧
    (a < 0x18000 → a % n = 0 → a / 16 ∈ k.badWords → k.scalarFault a n = some 9) := by
  have : scratchSize = 0x18000 := rfl
  unfold Core.scalarFault
  refine ⟨fun h => ?_, fun h1 h2 => ?_, fun h1 h2 h3 => ?_⟩
  · rw [this, decide_eq_true h]; exact lowest_cons_true 2 _ (by simp [misaligned, dataError])
  · rw [this, decide_eq_false (by omega)]
    have : (a % n != 0) = true := by simpa using h2
    rw [this]; simp only [lowest]; exact lowest_cons_true 3 _ (by simp [dataError])
  · rw [this, decide_eq_false (by omega)]
    have h4 : (a % n != 0) = false := by simpa using h2
    have h5 : (wordsIn a n).any k.badWords.contains = true := by
      rw [List.any_eq_true]; exact ⟨a / 16, (mem_of_div a n _ hn h2).2 rfl, by simpa using h3⟩
    rw [h4, h5]; rfl

/-! ## What the error codes find (R91, R108) -/

/-- An instruction with no finding meets the state as it is. -/
@[simp] theorem State.strike_none (s : State) (c : Nat) : s.strike c {} = s := by simp [State.strike]

end Sys2Proof.Machine
end

