-- ==== Sys2Proof/Laws/Links.lean ====
section
/-! SUPPORT. Links: what emptying a link's receive buffers, and entering IDENT, leave as it was. -/

namespace Sys2Proof.Machine

/-- A state whose links are those of `s` but for what waits to be sent, and which is `s` otherwise. -/
def SameLinks (s t : State) : Prop := (∃ m, t = { s with links := m }) ∧ ∀ k, ∃ out, t.link k = { s.link k with out }

theorem SameLinks.setOut {s t : State} (h : SameLinks s t) (k : Nat) (out : Map (List Packet)) :
    SameLinks s (t.setLink k { t.link k with out }) := by
  obtain ⟨⟨m, hm⟩, hl⟩ := h
  refine ⟨⟨put {} m k { t.link k with out }, by subst hm; rfl⟩, fun j => ?_⟩
  have step : (t.setLink k { t.link k with out }).link j = if j = k then { t.link k with out } else t.link j := look_put _ _ _ _ _
  rw [step]
  by_cases hj : j = k
  · subst hj
    obtain ⟨o, ho⟩ := hl j
    exact ⟨out, by simp [ho]⟩
  · simpa [hj] using hl j

theorem SameLinks.repeatOut (g : Map (List Packet) → Map (List Packet)) (s : State) (n : Nat) : ∀ (i : Nat) (t : State), SameLinks s t →
    SameLinks s (repeatFrom (fun k t => t.setLink k { t.link k with out := g (t.link k).out }) n i t) := by
  induction n with
  | zero => exact fun _ _ h => h
  | succ n ih => exact fun i t h => ih (i + 1) _ (h.setOut i _)

/-- Emptying a link's receive buffers changes what the packets that wait in links say of where they lie, and nothing else. -/
theorem emptyBuffers_same (s : State) (l : Nat) : SameLinks s (emptyBuffers s l) :=
  SameLinks.repeatOut _ s 6 0 s ⟨⟨s.links, rfl⟩, fun k => ⟨(s.link k).out, rfl⟩⟩

/-- A link that enters IDENT has every count at zero, its far end as it was, and has sent IDENT. -/
theorem enterIdent_link (s : State) (l : Nat) : ∃ out,
    (enterIdent s l).link l = { s.link l with out, sent := [], farFreed := [], arrived := [], freed := [], sinceCredit := [] } := by
  obtain ⟨-, hl⟩ := emptyBuffers_same (s.setN Obj.linkState (l + 1) lsIdent) l
  obtain ⟨out, ho⟩ := hl l
  refine ⟨out, (look_put_same _ _ _ _).trans ?_⟩
  simp only [ho]
  rfl

end Sys2Proof.Machine
end

