-- ==== Sys2Proof/Laws/Record.lean ====
section
/-! SUPPORT. Recording an event: all that it can do, once, and the fields that it leaves as they were. -/

namespace Sys2Proof.Machine

/-- An entry of a log ring changes the port's registers and what has been sent, and nothing else. -/
theorem logTo_only (cls code : Nat) (args : List Nat) (s : State) (n : Nat) :
    ∃ regs sent, logTo cls code args s n = { s with regs, sent } := by
  simp only [logTo]
  split
  · exact ⟨s.regs, s.sent, rfl⟩
  · split
    · exact ⟨_, _, rfl⟩
    · exact ⟨_, _, rfl⟩

/-- Entries of several log rings. -/
theorem foldl_logTo_only (cls code : Nat) (args : List Nat) (ns : List Nat) :
    ∀ s : State, ∃ regs sent, ns.foldl (logTo cls code args) s = { s with regs, sent } := by
  induction ns with
  | nil => exact fun s => ⟨s.regs, s.sent, rfl⟩
  | cons n ns ih =>
    intro s
    obtain ⟨r, t, h⟩ := logTo_only cls code args s n
    obtain ⟨r', t', h'⟩ := ih { s with regs := r, sent := t }
    exact ⟨r', t', by simp only [List.foldl_cons, h, h']⟩

/-- Keeping an event and entering its NOTICE in log rings. -/
theorem State.enterEvent_only (s : State) (part : Option Nat) (old : List Nat) (code : Nat) (args : List Nat) :
    ∃ objs regs scribe sent, s.enterEvent part old code args = { s with objs, regs, scribe, sent } := by
  obtain ⟨r, t, h⟩ := foldl_logTo_only 31 code args (noticePorts s part) (s.keepEvent old code args)
  exact ⟨_, r, _, t, h⟩

/-- An event that has its token. -/
theorem State.takeEvent_only (s : State) (part : Option Nat) (code : Nat) (args : List Nat) :
    ∃ objs regs scribe sent, s.takeEvent part code args = { s with objs, regs, scribe, sent } := by
  simp only [State.takeEvent]
  split
  · split
    · rename_i e _
      obtain ⟨o, r, x, t, h⟩ := (s.displace s.postedNow e).enterEvent_only part (s.postedNow.erase e.code.toNat) code args
      exact ⟨o, r, x, t, h⟩
    · exact ⟨_, s.regs, s.scribe, s.sent, rfl⟩
  · exact s.enterEvent_only part s.postedNow code args

/-- Recording an event changes objects, registers, the Scribe and what has been sent, and nothing else. -/
theorem State.recordFor_only (s : State) (part : Option Nat) (code : Nat) (args : List Nat) :
    ∃ objs regs scribe sent, s.recordFor part code args = { s with objs, regs, scribe, sent } := by
  simp only [State.recordFor]
  split
  · exact ⟨_, s.regs, _, s.sent, rfl⟩
  · split
    · exact s.takeEvent_only part code args
    · obtain ⟨o, r, x, t, h⟩ := (s.setTokens code (s.tokens code - 1)).takeEvent_only part code args
      exact ⟨o, r, x, t, h⟩

/-- Recording an event of the module as a whole. -/
theorem State.record_only (s : State) (code : Nat) (args : List Nat) :
    ∃ objs regs scribe sent, s.record code args = { s with objs, regs, scribe, sent } := s.recordFor_only none code args

/-- Recording an event of an unlisted kind. -/
theorem State.note_only (s : State) (part : Option Nat) (u : Unlisted) (details : List Nat) :
    ∃ objs regs scribe sent, s.note part u details = { s with objs, regs, scribe, sent } := s.recordFor_only part _ _

@[simp] theorem State.pending_recordFor (s : State) (p : Option Nat) (k : Nat) (xs : List Nat) : (s.recordFor p k xs).pending = s.pending := by
  obtain ⟨_, _, _, _, h⟩ := s.recordFor_only p k xs; rw [h]
@[simp] theorem State.pending_record (s : State) (k : Nat) (xs : List Nat) : (s.record k xs).pending = s.pending := s.pending_recordFor none k xs
@[simp] theorem State.pending_note (s : State) (p : Option Nat) (u : Unlisted) (xs : List Nat) : (s.note p u xs).pending = s.pending :=
  s.pending_recordFor p _ _
@[simp] theorem State.free_recordFor (s : State) (p : Option Nat) (k : Nat) (xs : List Nat) : (s.recordFor p k xs).free = s.free := by
  obtain ⟨_, _, _, _, h⟩ := s.recordFor_only p k xs; rw [h]
@[simp] theorem State.free_record (s : State) (k : Nat) (xs : List Nat) : (s.record k xs).free = s.free := s.free_recordFor none k xs
@[simp] theorem State.free_note (s : State) (p : Option Nat) (u : Unlisted) (xs : List Nat) : (s.note p u xs).free = s.free :=
  s.free_recordFor p _ _
@[simp] theorem State.mem_recordFor (s : State) (p : Option Nat) (k : Nat) (xs : List Nat) : (s.recordFor p k xs).mem = s.mem := by
  obtain ⟨_, _, _, _, h⟩ := s.recordFor_only p k xs; rw [h]
@[simp] theorem State.mem_record (s : State) (k : Nat) (xs : List Nat) : (s.record k xs).mem = s.mem := s.mem_recordFor none k xs
@[simp] theorem State.mem_note (s : State) (p : Option Nat) (u : Unlisted) (xs : List Nat) : (s.note p u xs).mem = s.mem :=
  s.mem_recordFor p _ _
@[simp] theorem State.bad_recordFor (s : State) (p : Option Nat) (k : Nat) (xs : List Nat) : (s.recordFor p k xs).bad = s.bad := by
  obtain ⟨_, _, _, _, h⟩ := s.recordFor_only p k xs; rw [h]
@[simp] theorem State.bad_record (s : State) (k : Nat) (xs : List Nat) : (s.record k xs).bad = s.bad := s.bad_recordFor none k xs
@[simp] theorem State.bad_note (s : State) (p : Option Nat) (u : Unlisted) (xs : List Nat) : (s.note p u xs).bad = s.bad :=
  s.bad_recordFor p _ _
@[simp] theorem State.tiers_recordFor (s : State) (p : Option Nat) (k : Nat) (xs : List Nat) : (s.recordFor p k xs).tiers = s.tiers := by
  obtain ⟨_, _, _, _, h⟩ := s.recordFor_only p k xs; rw [h]
@[simp] theorem State.tiers_record (s : State) (k : Nat) (xs : List Nat) : (s.record k xs).tiers = s.tiers := s.tiers_recordFor none k xs
@[simp] theorem State.tiers_note (s : State) (p : Option Nat) (u : Unlisted) (xs : List Nat) : (s.note p u xs).tiers = s.tiers :=
  s.tiers_recordFor p _ _
@[simp] theorem State.scrubExt_recordFor (s : State) (p : Option Nat) (k : Nat) (xs : List Nat) : (s.recordFor p k xs).scrubExt = s.scrubExt := by
  obtain ⟨_, _, _, _, h⟩ := s.recordFor_only p k xs; rw [h]
@[simp] theorem State.scrubExt_record (s : State) (k : Nat) (xs : List Nat) : (s.record k xs).scrubExt = s.scrubExt := s.scrubExt_recordFor none k xs
@[simp] theorem State.scrubExt_note (s : State) (p : Option Nat) (u : Unlisted) (xs : List Nat) : (s.note p u xs).scrubExt = s.scrubExt :=
  s.scrubExt_recordFor p _ _
@[simp] theorem State.cores_recordFor (s : State) (p : Option Nat) (k : Nat) (xs : List Nat) : (s.recordFor p k xs).cores = s.cores := by
  obtain ⟨_, _, _, _, h⟩ := s.recordFor_only p k xs; rw [h]
@[simp] theorem State.cores_record (s : State) (k : Nat) (xs : List Nat) : (s.record k xs).cores = s.cores := s.cores_recordFor none k xs
@[simp] theorem State.cores_note (s : State) (p : Option Nat) (u : Unlisted) (xs : List Nat) : (s.note p u xs).cores = s.cores :=
  s.cores_recordFor p _ _
@[simp] theorem State.rows_recordFor (s : State) (p : Option Nat) (k : Nat) (xs : List Nat) : (s.recordFor p k xs).rows = s.rows := by
  obtain ⟨_, _, _, _, h⟩ := s.recordFor_only p k xs; rw [h]
@[simp] theorem State.rows_record (s : State) (k : Nat) (xs : List Nat) : (s.record k xs).rows = s.rows := s.rows_recordFor none k xs
@[simp] theorem State.rows_note (s : State) (p : Option Nat) (u : Unlisted) (xs : List Nat) : (s.note p u xs).rows = s.rows :=
  s.rows_recordFor p _ _
@[simp] theorem State.bays_recordFor (s : State) (p : Option Nat) (k : Nat) (xs : List Nat) : (s.recordFor p k xs).bays = s.bays := by
  obtain ⟨_, _, _, _, h⟩ := s.recordFor_only p k xs; rw [h]
@[simp] theorem State.bays_record (s : State) (k : Nat) (xs : List Nat) : (s.record k xs).bays = s.bays := s.bays_recordFor none k xs
@[simp] theorem State.bays_note (s : State) (p : Option Nat) (u : Unlisted) (xs : List Nat) : (s.note p u xs).bays = s.bays :=
  s.bays_recordFor p _ _
@[simp] theorem State.parts_recordFor (s : State) (p : Option Nat) (k : Nat) (xs : List Nat) : (s.recordFor p k xs).parts = s.parts := by
  obtain ⟨_, _, _, _, h⟩ := s.recordFor_only p k xs; rw [h]
@[simp] theorem State.parts_record (s : State) (k : Nat) (xs : List Nat) : (s.record k xs).parts = s.parts := s.parts_recordFor none k xs
@[simp] theorem State.parts_note (s : State) (p : Option Nat) (u : Unlisted) (xs : List Nat) : (s.note p u xs).parts = s.parts :=
  s.parts_recordFor p _ _
@[simp] theorem State.ctxs_recordFor (s : State) (p : Option Nat) (k : Nat) (xs : List Nat) : (s.recordFor p k xs).ctxs = s.ctxs := by
  obtain ⟨_, _, _, _, h⟩ := s.recordFor_only p k xs; rw [h]
@[simp] theorem State.ctxs_record (s : State) (k : Nat) (xs : List Nat) : (s.record k xs).ctxs = s.ctxs := s.ctxs_recordFor none k xs
@[simp] theorem State.ctxs_note (s : State) (p : Option Nat) (u : Unlisted) (xs : List Nat) : (s.note p u xs).ctxs = s.ctxs :=
  s.ctxs_recordFor p _ _
@[simp] theorem State.queues_recordFor (s : State) (p : Option Nat) (k : Nat) (xs : List Nat) : (s.recordFor p k xs).queues = s.queues := by
  obtain ⟨_, _, _, _, h⟩ := s.recordFor_only p k xs; rw [h]
@[simp] theorem State.queues_record (s : State) (k : Nat) (xs : List Nat) : (s.record k xs).queues = s.queues := s.queues_recordFor none k xs
@[simp] theorem State.queues_note (s : State) (p : Option Nat) (u : Unlisted) (xs : List Nat) : (s.note p u xs).queues = s.queues :=
  s.queues_recordFor p _ _
@[simp] theorem State.ports_recordFor (s : State) (p : Option Nat) (k : Nat) (xs : List Nat) : (s.recordFor p k xs).ports = s.ports := by
  obtain ⟨_, _, _, _, h⟩ := s.recordFor_only p k xs; rw [h]
@[simp] theorem State.ports_record (s : State) (k : Nat) (xs : List Nat) : (s.record k xs).ports = s.ports := s.ports_recordFor none k xs
@[simp] theorem State.ports_note (s : State) (p : Option Nat) (u : Unlisted) (xs : List Nat) : (s.note p u xs).ports = s.ports :=
  s.ports_recordFor p _ _
@[simp] theorem State.mcs_recordFor (s : State) (p : Option Nat) (k : Nat) (xs : List Nat) : (s.recordFor p k xs).mcs = s.mcs := by
  obtain ⟨_, _, _, _, h⟩ := s.recordFor_only p k xs; rw [h]
@[simp] theorem State.mcs_record (s : State) (k : Nat) (xs : List Nat) : (s.record k xs).mcs = s.mcs := s.mcs_recordFor none k xs
@[simp] theorem State.mcs_note (s : State) (p : Option Nat) (u : Unlisted) (xs : List Nat) : (s.note p u xs).mcs = s.mcs :=
  s.mcs_recordFor p _ _
@[simp] theorem State.sus_recordFor (s : State) (p : Option Nat) (k : Nat) (xs : List Nat) : (s.recordFor p k xs).sus = s.sus := by
  obtain ⟨_, _, _, _, h⟩ := s.recordFor_only p k xs; rw [h]
@[simp] theorem State.sus_record (s : State) (k : Nat) (xs : List Nat) : (s.record k xs).sus = s.sus := s.sus_recordFor none k xs
@[simp] theorem State.sus_note (s : State) (p : Option Nat) (u : Unlisted) (xs : List Nat) : (s.note p u xs).sus = s.sus :=
  s.sus_recordFor p _ _
@[simp] theorem State.colls_recordFor (s : State) (p : Option Nat) (k : Nat) (xs : List Nat) : (s.recordFor p k xs).colls = s.colls := by
  obtain ⟨_, _, _, _, h⟩ := s.recordFor_only p k xs; rw [h]
@[simp] theorem State.colls_record (s : State) (k : Nat) (xs : List Nat) : (s.record k xs).colls = s.colls := s.colls_recordFor none k xs
@[simp] theorem State.colls_note (s : State) (p : Option Nat) (u : Unlisted) (xs : List Nat) : (s.note p u xs).colls = s.colls :=
  s.colls_recordFor p _ _
@[simp] theorem State.links_recordFor (s : State) (p : Option Nat) (k : Nat) (xs : List Nat) : (s.recordFor p k xs).links = s.links := by
  obtain ⟨_, _, _, _, h⟩ := s.recordFor_only p k xs; rw [h]
@[simp] theorem State.links_record (s : State) (k : Nat) (xs : List Nat) : (s.record k xs).links = s.links := s.links_recordFor none k xs
@[simp] theorem State.links_note (s : State) (p : Option Nat) (u : Unlisted) (xs : List Nat) : (s.note p u xs).links = s.links :=
  s.links_recordFor p _ _
@[simp] theorem State.net_recordFor (s : State) (p : Option Nat) (k : Nat) (xs : List Nat) : (s.recordFor p k xs).net = s.net := by
  obtain ⟨_, _, _, _, h⟩ := s.recordFor_only p k xs; rw [h]
@[simp] theorem State.net_record (s : State) (k : Nat) (xs : List Nat) : (s.record k xs).net = s.net := s.net_recordFor none k xs
@[simp] theorem State.net_note (s : State) (p : Option Nat) (u : Unlisted) (xs : List Nat) : (s.note p u xs).net = s.net :=
  s.net_recordFor p _ _
@[simp] theorem State.dict_recordFor (s : State) (p : Option Nat) (k : Nat) (xs : List Nat) : (s.recordFor p k xs).dict = s.dict := by
  obtain ⟨_, _, _, _, h⟩ := s.recordFor_only p k xs; rw [h]
@[simp] theorem State.dict_record (s : State) (k : Nat) (xs : List Nat) : (s.record k xs).dict = s.dict := s.dict_recordFor none k xs
@[simp] theorem State.dict_note (s : State) (p : Option Nat) (u : Unlisted) (xs : List Nat) : (s.note p u xs).dict = s.dict :=
  s.dict_recordFor p _ _
@[simp] theorem State.raising_recordFor (s : State) (p : Option Nat) (k : Nat) (xs : List Nat) : (s.recordFor p k xs).raising = s.raising := by
  obtain ⟨_, _, _, _, h⟩ := s.recordFor_only p k xs; rw [h]
@[simp] theorem State.raising_record (s : State) (k : Nat) (xs : List Nat) : (s.record k xs).raising = s.raising := s.raising_recordFor none k xs
@[simp] theorem State.raising_note (s : State) (p : Option Nat) (u : Unlisted) (xs : List Nat) : (s.note p u xs).raising = s.raising :=
  s.raising_recordFor p _ _
@[simp] theorem State.fw_recordFor (s : State) (p : Option Nat) (k : Nat) (xs : List Nat) : (s.recordFor p k xs).fw = s.fw := by
  obtain ⟨_, _, _, _, h⟩ := s.recordFor_only p k xs; rw [h]
@[simp] theorem State.fw_record (s : State) (k : Nat) (xs : List Nat) : (s.record k xs).fw = s.fw := s.fw_recordFor none k xs
@[simp] theorem State.fw_note (s : State) (p : Option Nat) (u : Unlisted) (xs : List Nat) : (s.note p u xs).fw = s.fw :=
  s.fw_recordFor p _ _
@[simp] theorem State.sec_recordFor (s : State) (p : Option Nat) (k : Nat) (xs : List Nat) : (s.recordFor p k xs).sec = s.sec := by
  obtain ⟨_, _, _, _, h⟩ := s.recordFor_only p k xs; rw [h]
@[simp] theorem State.sec_record (s : State) (k : Nat) (xs : List Nat) : (s.record k xs).sec = s.sec := s.sec_recordFor none k xs
@[simp] theorem State.sec_note (s : State) (p : Option Nat) (u : Unlisted) (xs : List Nat) : (s.note p u xs).sec = s.sec :=
  s.sec_recordFor p _ _
@[simp] theorem State.power_recordFor (s : State) (p : Option Nat) (k : Nat) (xs : List Nat) : (s.recordFor p k xs).power = s.power := by
  obtain ⟨_, _, _, _, h⟩ := s.recordFor_only p k xs; rw [h]
@[simp] theorem State.power_record (s : State) (k : Nat) (xs : List Nat) : (s.record k xs).power = s.power := s.power_recordFor none k xs
@[simp] theorem State.power_note (s : State) (p : Option Nat) (u : Unlisted) (xs : List Nat) : (s.note p u xs).power = s.power :=
  s.power_recordFor p _ _
@[simp] theorem State.clock_recordFor (s : State) (p : Option Nat) (k : Nat) (xs : List Nat) : (s.recordFor p k xs).clock = s.clock := by
  obtain ⟨_, _, _, _, h⟩ := s.recordFor_only p k xs; rw [h]
@[simp] theorem State.clock_record (s : State) (k : Nat) (xs : List Nat) : (s.record k xs).clock = s.clock := s.clock_recordFor none k xs
@[simp] theorem State.clock_note (s : State) (p : Option Nat) (u : Unlisted) (xs : List Nat) : (s.note p u xs).clock = s.clock :=
  s.clock_recordFor p _ _
@[simp] theorem State.pins_recordFor (s : State) (p : Option Nat) (k : Nat) (xs : List Nat) : (s.recordFor p k xs).pins = s.pins := by
  obtain ⟨_, _, _, _, h⟩ := s.recordFor_only p k xs; rw [h]
@[simp] theorem State.pins_record (s : State) (k : Nat) (xs : List Nat) : (s.record k xs).pins = s.pins := s.pins_recordFor none k xs
@[simp] theorem State.pins_note (s : State) (p : Option Nat) (u : Unlisted) (xs : List Nat) : (s.note p u xs).pins = s.pins :=
  s.pins_recordFor p _ _
@[simp] theorem State.fuses_recordFor (s : State) (p : Option Nat) (k : Nat) (xs : List Nat) : (s.recordFor p k xs).fuses = s.fuses := by
  obtain ⟨_, _, _, _, h⟩ := s.recordFor_only p k xs; rw [h]
@[simp] theorem State.fuses_record (s : State) (k : Nat) (xs : List Nat) : (s.record k xs).fuses = s.fuses := s.fuses_recordFor none k xs
@[simp] theorem State.fuses_note (s : State) (p : Option Nat) (u : Unlisted) (xs : List Nat) : (s.note p u xs).fuses = s.fuses :=
  s.fuses_recordFor p _ _

end Sys2Proof.Machine
end

