-- ==== Sys2Proof/Laws/Memory.lean ====
section
/-! SUPPORT. Main memory: every operation on it keeps its canonical form, and a read leaves it as it was. -/

namespace Sys2Proof.Machine

@[simp] theorem mem_addCandidate (s : State) (ctl ch row : Nat) : (addCandidate s ctl ch row).mem = s.mem := by
  simp only [addCandidate]; split <;> simp

@[simp] theorem mem_noteUncorrectable (r : Nat) (s : State) (a : Nat) : (noteUncorrectable r s a).mem = s.mem := by
  simp [noteUncorrectable]

@[simp] theorem mem_noteCorrected (s : State) (a : Nat) : (noteCorrected s a).mem = s.mem := by
  simp only [noteCorrected]; split <;> simp [State.setMc]

@[simp] theorem mem_markFaulted (s : State) (x : Nat) : (markFaulted s x).mem = s.mem := by
  simp only [markFaulted]; split <;> rfl

/-- Noting several uncorrectable bursts leaves main memory as it was. -/
theorem mem_foldl_note (r : Nat) (f : Nat → Nat) (bs : List Nat) :
    ∀ s : State, (bs.foldl (fun s b => noteUncorrectable r s (f b)) s).mem = s.mem := by
  induction bs with
  | nil => exact fun _ => rfl
  | cons b bs ih => intro s; rw [List.foldl_cons, ih, mem_noteUncorrectable]

/-- A read of main memory leaves it as it was. -/
@[simp] theorem mem_readMem (r : Nat) (s : State) (a n : Nat) : (readMem r s a n).1.mem = s.mem := by
  simp only [readMem]
  split
  · rfl
  · split
    · rfl
    · exact mem_foldl_note r (fun b => 64 * b) _ s

/-- Storing bytes keeps main memory in its canonical form. -/
theorem canonical_storeMem (s : State) (a : Nat) (bs : Bytes) (h : Memory.wf s.mem = true) :
    Memory.wf (storeMem s a bs).mem = true := Memory.wf_writeBytes s.mem a bs h

/-- Scrubbing keeps it. -/
theorem canonical_scrubMem (s : State) (a n : Nat) (h : Memory.wf s.mem = true) :
    Memory.wf (scrubMem s a n).mem = true := Memory.wf_wipe s.mem a n h

/-- Storing several pieces keeps it. -/
theorem canonical_foldl_store (f : Nat → Nat) (g : Nat → Bytes) (bs : List Nat) : ∀ s : State, Memory.wf s.mem = true →
    Memory.wf (bs.foldl (fun s b => storeMem s (f b) (g b)) s).mem = true := by
  induction bs with
  | nil => exact fun _ h => h
  | cons b bs ih => exact fun s h => ih _ (canonical_storeMem s _ _ h)

/-- A checked write keeps it. -/
theorem canonical_writeMem (s : State) (a : Nat) (bs : Bytes) (h : Memory.wf s.mem = true) :
    Memory.wf (writeMem s a bs).1.mem = true := by
  simp only [writeMem]
  split
  · exact h
  · split
    · exact canonical_storeMem s a bs h
    · exact canonical_foldl_store _ _ _ _ (by rw [mem_foldl_note 7 (fun b => 64 * b)]; exact h)

/-- Taking frames from a ring leaves main memory as it was. -/
theorem mem_takeFrames (s t : State) (p n : Nat) (fs : List Nat) (h : takeFrames s p n = some (fs, t)) : t.mem = s.mem := by
  simp only [takeFrames] at h
  split at h
  · cases h
  · simp only [Option.some.injEq, Prod.mk.injEq] at h
    obtain ⟨-, rfl⟩ := h
    rfl

/-- Writing both copies of a map entry keeps main memory in its canonical form. -/
theorem canonical_writeEntry (s : State) (x page f : Nat) (h : Memory.wf s.mem = true) :
    Memory.wf (writeEntry s x page f).mem = true := by
  simp only [writeEntry, List.foldl_cons, List.foldl_nil]
  exact canonical_writeMem _ _ _ (canonical_writeMem _ _ _ h)

/-- Mapping a page keeps main memory in its canonical form. -/
theorem canonical_allocate (s t : State) (p x page f : Nat) (h : allocate s p x page = some (f, t)) (hw : Memory.wf s.mem = true) :
    Memory.wf t.mem = true := by
  simp only [allocate] at h
  split at h
  · simp only [Option.some.injEq, Prod.mk.injEq] at h; rw [← h.2]; exact hw
  · split at h
    · rename_i hf; cases h
      exact canonical_writeEntry _ _ _ _ (by rw [State.mem_setCtx, mem_takeFrames _ _ _ _ _ hf]; exact hw)
    · rename_i hf; cases h
      exact canonical_writeEntry _ _ _ _ (by rw [State.mem_setCtx, mem_takeFrames _ _ _ _ _ hf]; exact hw)
    · cases h

/-- A read of a page leaves main memory as it was. -/
@[simp] theorem mem_readPage (r : Nat) (s : State) (x page off n : Nat) : (readPage r s x page off n).1.mem = s.mem := by
  simp only [readPage]
  split
  · rfl
  · split <;> simp

/-- Reading the map leaves main memory as it was. -/
@[simp] theorem mem_noteMap (s : State) (b : Nat) : (noteMap s b).mem = s.mem := by
  simp only [noteMap]; split <;> simp

/-- So does finding out whether both copies of an entry are unreadable. -/
@[simp] theorem mem_mapFails (s : State) (x page : Nat) : (mapFails s x page).1.mem = s.mem := by
  simp only [mapFails]
  split
  · rfl
  · split
    · rfl
    · split <;> simp

/-- An allocation request keeps main memory in its canonical form. -/
theorem canonical_mapPage (s : State) (p x page : Nat) (h : Memory.wf s.mem = true) : Memory.wf (mapPage s p x page).1.mem = true := by
  simp only [mapPage]
  split
  · exact h
  · split
    · rename_i t ht
      rw [show t.mem = s.mem by rw [← mem_mapFails s x page, ht]]; exact h
    · rename_i t ht
      have ht' : Memory.wf t.mem = true := by rw [show t.mem = s.mem by rw [← mem_mapFails s x page, ht]]; exact h
      split
      · exact ht'
      · rename_i f u hu
        have := canonical_allocate _ _ _ _ _ _ hu ht'
        split
        · rw [mem_markFaulted]; exact this
        · exact this

/-- A write of a page keeps main memory in its canonical form. -/
theorem canonical_writePage (s : State) (p x page off : Nat) (bs : Bytes) (h : Memory.wf s.mem = true) :
    Memory.wf (writePage s p x page off bs).1.mem = true := by
  have hm := canonical_mapPage s p x page h
  simp only [writePage]
  split
  · rename_i e; rw [e] at hm; exact hm
  · rename_i t f e
    rw [e] at hm
    have := canonical_writeMem t (f * pageSize + off) bs hm
    split
    · exact this
    · rw [mem_markFaulted]; exact this

/-- A read of a piece of a view leaves main memory as it was. -/
@[simp] theorem mem_readTarget (r : Nat) (s : State) (p n : Nat) (t : Target) : (readTarget r s p n t).1.mem = s.mem := by
  cases t <;> simp only [readTarget]
  · exact mem_readMem r s _ n
  · split <;> simp
  · split <;> rfl

/-- A write of a piece of a view keeps main memory in its canonical form. -/
theorem canonical_writeTarget (s : State) (p : Nat) (bs : Bytes) (t : Target) (h : Memory.wf s.mem = true) :
    Memory.wf (writeTarget s p bs t).1.mem = true := by
  cases t <;> simp only [writeTarget]
  · exact canonical_writeMem s _ bs h
  · split
    · exact h
    · exact canonical_writePage s p _ _ _ bs h
  · split
    · exact h
    · exact h
  · exact h

/-- What every step of a fold keeps, the fold keeps. -/
theorem foldl_keeps {α β : Type} (P : α → Prop) (f : α → β → α) (hf : ∀ x y, P x → P (f x y)) :
    ∀ (ys : List β) (x : α), P x → P (ys.foldl f x)
  | [], _, h => h
  | y :: ys, x, h => foldl_keeps P f hf ys (f x y) (hf x y h)

/-- A read of a piece leaves main memory as it was. -/
@[simp] theorem mem_readPiece (r p : Nat) (x : State × Byte × Bytes) (y : Nat × Nat) : (readPiece r p x y).1.mem = x.1.mem := by
  unfold readPiece
  split
  · rfl
  · split
    · rfl
    · exact mem_readTarget r x.1 p y.2 _

/-- A write of a piece keeps main memory in its canonical form. -/
theorem canonical_writePiece (p a : Nat) (bs : Bytes) (x : State × Byte) (y : Nat × Nat) (h : Memory.wf x.1.mem = true) :
    Memory.wf (writePiece p a bs x y).1.mem = true := by
  unfold writePiece
  split
  · exact h
  · split
    · exact h
    · exact canonical_writeTarget x.1 p _ _ h

/-- A read of a range of a view leaves main memory as it was. -/
@[simp] theorem mem_readRange (r : Nat) (s : State) (p a n : Nat) : (readRange r s p a n).1.mem = s.mem :=
  foldl_keeps (fun x : State × Byte × Bytes => x.1.mem = s.mem) _ (fun x y h => (mem_readPiece r p x y).trans h) _ _ rfl

/-- A write of a range of a view keeps main memory in its canonical form. -/
theorem canonical_writeRange (s : State) (p a : Nat) (bs : Bytes) (h : Memory.wf s.mem = true) :
    Memory.wf (writeRange s p a bs).1.mem = true :=
  foldl_keeps (fun x : State × Byte => Memory.wf x.1.mem = true) _ (fun x y hx => canonical_writePiece p a bs x y hx) _ _ h

end Sys2Proof.Machine
end

