-- ==== Sys2Proof/Laws/Sync.lean ====
section
/-! SUPPORT. Barriers: which cores a release or a mismatch changes, and that it changes nothing else. -/

namespace Sys2Proof.Machine

/-- Changing those of some cores that wait at a barrier. -/
theorem foldl_waiting_only (f : Core → Core) (cs : List Nat) : ∀ s : State,
    ∃ m, cs.foldl (fun s c => if (s.core c).barrier.isSome then s.setCore c (f (s.core c)) else s) s = { s with cores := m } := by
  induction cs with
  | nil => exact fun s => ⟨s.cores, rfl⟩
  | cons c cs ih =>
    intro s
    rw [List.foldl_cons]
    split
    · exact (ih (s.setCore c (f (s.core c)))).imp fun _ h => h
    · exact ih s

theorem foldl_waiting_core (f : Core → Core) (c : Nat) (cs : List Nat) (hn : cs.Nodup) : ∀ s : State,
    (cs.foldl (fun s c => if (s.core c).barrier.isSome then s.setCore c (f (s.core c)) else s) s).core c =
      if c ∈ cs ∧ (s.core c).barrier.isSome then f (s.core c) else s.core c := by
  induction cs with
  | nil => simp
  | cons a cs ih =>
    intro s
    obtain ⟨ha, hcs⟩ := List.nodup_cons.mp hn
    have step : (s.setCore a (f (s.core a))).core c = if c = a then f (s.core a) else s.core c := look_put _ _ _ _ _
    rw [List.foldl_cons]
    by_cases hc : c = a
    · subst hc
      split <;> rename_i h <;> rw [ih hcs]
      · simp [step, ha, h]
      · simp [ha, h]
    · split
      · rw [ih hcs, step]; simp [hc]
      · rw [ih hcs]; simp [hc]

theorem State.workers_nodup (s : State) (b : Nat) : (s.workers b).Nodup :=
  (List.Nodup.map (fun _ _ h => Nat.add_left_cancel h) List.nodup_range).filter _

/-- A release or a mismatch of a bay changes cores and nothing else. -/
theorem State.onWaiting_only (s : State) (b : Nat) (f : Core → Core) : ∃ m, s.onWaiting b f = { s with cores := m } :=
  foldl_waiting_only f _ s

/-- A release or a mismatch of a bay changes the cores of its rows in use that wait at a barrier, each once, and no other. -/
theorem State.core_onWaiting (s : State) (b c : Nat) (f : Core → Core) :
    (s.onWaiting b f).core c = if c ∈ s.workers b ∧ (s.core c).barrier.isSome then f (s.core c) else s.core c :=
  foldl_waiting_core f c _ (s.workers_nodup b) s

end Sys2Proof.Machine
end

