-- ==== Sys2Proof/Tests/Slice0.lean ====
section
/-! SUPPORT. The author's own tests: ill-formed commands that the check refuses, words of the manual's worked examples, small steps whose
results the manual gives, and, for each obligation with hypotheses, states and operands that meet them. -/

set_option Elab.async false

namespace Sys2Proof.Tests

open Sys2Proof Sys2Proof.Machine

/-! ## Well-formed commands -/

/-- A header with nothing set. -/
def header : Header := blankHeader

theorem test_data_too_long : (Instr.write 0 { header with flits := 65 } (List.replicate 4097 0)).wellFormed = false := by decide +kernel
theorem test_data_wrong_flits : (Instr.readReply 0 { header with flits := 2 } [1]).wellFormed = false := by decide
theorem test_chunk_wrong_flits : (Instr.chunk 0 header [1]).wellFormed = false := by decide
theorem test_data_fits : (Instr.write 0 { header with flits := 2 } (List.replicate 65 0)).wellFormed = true := by decide
theorem test_credit_short : (Instr.credit 0 [0, 0, 0, 0, 0]).wellFormed = false := by decide
theorem test_audit_long : (Instr.audit 0 [0, 0, 0, 0, 0, 0, 0]).wellFormed = false := by decide
theorem test_ident_short : (Instr.ident 0 ⟨0, 0, 0, 0, 0, 0, 0, [], 0⟩).wellFormed = false := by decide
theorem test_burst_empty : (Instr.controllerRequest 0 ⟨0, none, 0, 0, none, none⟩ .clean).wellFormed = false := by decide
theorem test_burst_across : (Instr.controllerRequest 0 ⟨60, none, 5, 0, none, none⟩ .clean).wellFormed = false := by decide
theorem test_burst_write_length : (Instr.controllerRequest 0 ⟨0, some [1], 2, 0, none, none⟩ .clean).wellFormed = false := by decide
theorem test_codeword_none_wrong : (Instr.codeword 0 { symbols := 1, errors := 0, corrected := true, bits := 0 }).wellFormed = false := by decide
theorem test_codeword_too_many : (Instr.codeword 0 { symbols := 16, errors := 16, corrected := true, bits := 0 }).wellFormed = false := by decide
theorem test_codeword_lost : (Instr.codeword 0 { symbols := 16, errors := 16, corrected := false, bits := 0 }).wellFormed = true := by decide
theorem test_word_outside : (Instr.nop ⟨0, { scratch := [6144] }⟩ ⟨false, 0, 0, 0, 0, 0, 0⟩).wellFormed = false ∧
    (Instr.nop ⟨0, { scratch := [6143] }⟩ ⟨false, 0, 0, 0, 0, 0, 0⟩).wellFormed = true ∧
    (Instr.stepLoad ⟨0, [(0, { imem := [2048] })]⟩).wellFormed = false := by decide
theorem test_errors_above_bits : (Instr.berWindow 0 2 1 false).wellFormed = false := by decide
theorem test_bar4_read_nothing : (Instr.bar4Read 0 0 0).wellFormed = false := by decide
theorem test_bar4_write_nothing : (Instr.bar4Write 0 0 []).wellFormed = false := by decide
theorem test_register_outside : (Instr.registerWrite 0 0x1_0000 0).wellFormed = false := by decide
theorem test_entry_short : (Instr.dbSqTail 0 0 1 [[0]]).wellFormed = false := by decide
theorem test_diode_outside : (Instr.thermalSample [(224, 0)] (List.replicate 24 0)).wellFormed = false := by decide
theorem test_packages_missing : (Instr.thermalSample [] (List.replicate 23 0)).wellFormed = false := by decide
theorem test_segment_too_long :
    (Instr.updData ⟨false, 0, 0, 0, 0, false, true⟩ ⟨2, 0, 0, 0, 0, 0, List.replicate 1025 0, false⟩).wellFormed = false := by decide +kernel

/-- A message of version 2 that reads the name of the device. -/
def message : Msg := ⟨2, 1, 7, 0x1000, 0, 0, 0, 0, 0, 0, [], false, false⟩
/-- A datagram for the management port. -/
def origin : Origin := ⟨false, 5, 6, 0, 0, false, true⟩

theorem test_message_too_long : (Instr.objectWrite origin { message with data := List.replicate 1025 0 }).wellFormed = false := by
  decide +kernel
theorem test_message_short_with_data : (Instr.objectRead origin { message with short := true, data := [1] }).wellFormed = false := by decide

/-! ## The worked words of chapter 5, "encoding the infeed loop" -/

theorem test_word_li : decodeWord 0x0C03_0000_0000_8400 = some (.li, ⟨false, 0, 6, 0, 0, 0, 0x8400⟩) := by decide
theorem test_word_loop : decodeWord 0x2200_0001_0004_0009 = some (.loop, ⟨false, 0, 0, 0, 0, 1, 0x0004_0009⟩) := by decide
theorem test_word_tmma : decodeWord 0x6000_98E0_0210_1073 = some (.tmma, ⟨false, 0, 1, 6, 7, 0, 0x0210_1073⟩) := by decide
theorem test_word_srel : decodeWord 0x8100_00E1_0000_0000 = some (.srel, ⟨false, 0, 0, 0, 7, 1, 0⟩) := by decide
theorem test_word_xor : decodeWord 0x0403_9C01_0000_2000 = some (.xor, ⟨false, 0, 7, 7, 0, 1, 0x2000⟩) := by decide
theorem test_word_add : encodeWord .add ⟨false, 0, 6, 6, 0, 1, 0x210⟩ = 0x0003_1801_0000_0210 := by decide
theorem test_word_tsync : decodeWord 0xA300_0000_0000_0000 = some (.tsync, ⟨false, 0, 0, 0, 0, 0, 0⟩) := by decide
/-- A reserved field, a reserved function and a reserved group are no instruction (R107). -/
theorem test_word_reserved : decodeWord 0x0C03_0001_0000_8400 = none ∧ decodeWord 0x2400_0000_0000_0000 = none ∧
    decodeWord 0xD000_0000_0000_0000 = none := by decide

/-! ## Core instructions -/

/-- Legal fields for each instruction: destination 1, sources 2 and 3. -/
def legal (o : Op) : Fields :=
  let f : Fields := ⟨false, 0, 1, 2, 3, 0, 0⟩
  let z : Fields := ⟨false, 0, 0, 0, 0, 0, 0⟩
  match o with
  | .li => { z with d := 1, imm := 7 }
  | .sel => { f with imm := 1 }
  | .ldw | .ldh | .ldb => { f with b := 0 }
  | .stw | .sth | .stb => { f with d := 0 }
  | .br => { z with imm := 3 }
  | .bri => { z with a := 2 }
  | .loop => { z with m := 1, imm := 0x0004_0003 }
  | .vcvt => { f with b := 0, imm := 0x00 }
  | .vld | .vst => { f with imm := 4 * 2 ^ 17 }
  | .vldx | .vstx => f
  | .vins => { f with b := 0, imm := 31 }
  | .vext => { f with b := 0, imm := 31 }
  | .vbcst | .vnl | .vflr | .vfrac => { f with b := 0 }
  | .tmma | .tmmac => { f with imm := 0x0000_0122 }
  | .tclr => { z with d := 1 }
  | .tjoin => { f with b := 0 }
  | .drain => { f with b := 0 }
  | .exportTile => { f with b := 0 }
  | .swait => { z with d := 1 }
  | .srel => z
  | .movd | .tcoll => { z with a := 2 }
  | .barb | .bard => { z with imm := 5 }
  | .waitf => { f with d := 0 }
  | .lsend => { f with imm := 1 }
  | .mfs => { z with d := 1, imm := 0x0C }
  | .trap => { z with imm := 0xBEEF }
  | .brk | .tsync | .mwait | .nop | .halt => z
  | _ => f

/-- Every instruction. -/
def allOps : List Op :=
  [.add, .sub, .and, .or, .xor, .shl, .shr, .sar, .mul, .mulh, .setp, .plog, .li, .sel, .min, .max, .ldw, .ldh, .ldb, .stw, .sth, .stb,
    .br, .bri, .loop, .brk, .vadd, .vsub, .vmul, .vfma, .vmin, .vmax, .vand, .vor, .vxor, .vshl, .vshr, .vcmp, .vsel, .vcvt, .vred,
    .vperm, .vld, .vst, .vldx, .vstx, .vins, .vext, .vbcst, .vnl, .vflr, .vfrac, .vldexp, .tmma, .tmmac, .tclr, .tjoin, .drain,
    .exportTile, .swait, .srel, .movd, .barb, .bard, .waitf, .tsync, .mwait, .tcoll, .lsend, .nop, .mfs, .halt, .trap]

/-- The list holds every instruction once. -/
theorem test_allOps : allOps.length = 73 ∧ allOps.Nodup ∧ ∀ o ∈ allOps, fieldsOk o (legal o) = true := by decide +kernel

/-- Core 0 runs `k` with one instruction word at its PC, in a row whose list names one more fill. -/
def running (k : Core) (w : Dword) : State :=
  (State.reset.setRow 0 { (State.reset.row 0) with
    idle := false, progLen := k.pc + 1, imem := put 0 [] k.pc w, hasList := true, descLeft := 1 }).setCore 0 { k with run := .running }

/-- Core 0 runs `k`, and its next instruction is `o` with its legal fields. -/
def at_ (k : Core) (o : Op) : State := running k (encodeWord o (legal o))

/-- The state after a command. -/
def after (i : Instr) (s : State) : State :=
  match exec i s with
  | .next t => t
  | _ => s

/-- Core 0 after its next instruction. -/
def done (k : Core) (o : Op) : Core := (after (o.instr 0 (legal o)) (at_ k o)).core 0

/-- Registers g2 and g3 hold two words. -/
def gs (x y : Word) : Core := { g := [(2, x), (3, y)] }

/-- Every instruction can issue (hypotheses of every statement about one instruction). -/
theorem witness_issues : ∀ o ∈ allOps, Issues (at_ {} o) 0 o (legal o) := by
  unfold Issues; decide +kernel

theorem test_add_wraps : (done (gs 0xFFFF_FFFF 2) .add).getG 1 = 1 := by decide
theorem test_sub_wraps : (done (gs 0 1) .sub).getG 1 = 0xFFFF_FFFF := by decide
/-- A shift uses bits [4:0] of its amount (R125). -/
theorem test_shl_amount : (done (gs 1 33) .shl).getG 1 = 2 := by decide
theorem test_sar_sign : (done (gs 0x8000_0000 31) .sar).getG 1 = 0xFFFF_FFFF := by decide
theorem test_mulh_signed : (done (gs 0xFFFF_FFFF 2) .mulh).getG 1 = 0xFFFF_FFFF := by decide
theorem test_min_signed : (done (gs 0xFFFF_FFFF 1) .min).getG 1 = 0xFFFF_FFFF := by decide
theorem test_li : (done {} .li).getG 1 = 7 ∧ (done {} .li).pc = 1 := by decide
/-- SETP with m[3:1] = 0 compares for equality; g0 and p0 are not written (R84, R125). -/
theorem test_setp : (done (gs 5 5) .setp).getP 1 = true ∧ (done (gs 5 6) .setp).getP 1 = false := by decide
/-- Stores are little-endian (R9, R126). -/
theorem test_stw : byteAt (done { gs 16 0x0403_0201 with pc := 0 } .stw).scratch 16 = 1 ∧
    byteAt (done (gs 16 0x0403_0201) .stw).scratch 19 = 4 := by decide
theorem test_stw_misaligned : (done (gs 18 0) .stw).run = .faulted 0x03 := by decide
theorem test_ldw_range : (done (gs 0x1_8000 0) .ldw).run = .faulted 0x02 ∧ (done (gs 0x1_7FFD 0) .ldw).run = .faulted 0x03 := by decide
theorem test_ldh_zero_extends : (done { gs 16 0 with scratch := [(16, 0xFF), (17, 0xFF)] } .ldh).getG 1 = 0xFFFF := by decide
/-- A LOOP that ends at its own PC, or beyond the end of the loop around it, is LOOP_STRUCTURE (R123). -/
theorem test_loop_structure : (done { pc := 3 } .loop).run = .faulted 0x06 ∧ (done { loops := [⟨0, 2, 2⟩] } .loop).run = .faulted 0x06 := by decide
/-- A branch out of the body of the innermost loop is LOOP_STRUCTURE (R123). -/
theorem test_br_out_of_loop : (done { loops := [⟨0, 2, 2⟩] } .br).run = .faulted 0x06 := by decide
theorem test_loop : (done {} .loop).loops = [⟨1, 3, 4⟩] ∧ (done {} .loop).pc = 1 := by decide
/-- The last instruction of a body goes back while passes remain, and on after the last (R101, R127). -/
theorem test_back_edge : (done { loops := [⟨5, 0, 2⟩] } .nop).pc = 5 ∧ (done { loops := [⟨5, 0, 1⟩] } .nop).pc = 1 := by decide
/-- 1.0 + 2.0 = 3.0 in lane 0 (R79, R128). -/
theorem test_vadd_fp : (done { v := [(64, 0x3F80_0000), (96, 0x4000_0000)] } .vadd).lane 1 0 = 0x4040_0000 := by decide +kernel
theorem test_vext : (done { v := [(95, 9)] } .vext).getG 1 = 9 := by decide
/-- A word that the error codes cannot correct faults the load that meets it, and one of another array does not (R91, R108). -/
theorem test_strike :
    ((after (.ldb ⟨0, { scratch := [1] }⟩ (legal .ldb)) (at_ (gs 16 0) .ldb)).core 0).run = .faulted 0x09 ∧
    ((after (.ldb ⟨0, { tables := [1], slots := [(0, 1)] }⟩ (legal .ldb)) (at_ (gs 16 0) .ldb)).core 0).run = .running := by decide +kernel
theorem test_trap : (done {} .trap).run = .faulted 0x0A ∧ (done {} .trap).faultAux = 0xBEEF := by decide
/-- A predicate that is false makes an instruction a NOP (R100). -/
theorem test_guard_false : ((after (.add ⟨0, {}⟩ { legal .add with pr := 1 }) (running (gs 1 1) (encodeWord .add { legal .add with pr := 1 }))).core 0).getG 1 = 0 := by
  decide
theorem test_tclr_enters : (done {} .tclr).tq = [⟨0, .tclr 1⟩] := by decide
/-- The fifth entry waits at issue (R88). -/
theorem test_queue_full : (done { tq := List.replicate 4 ⟨0, .tclr 0⟩ } .tclr).pc = 0 := by decide

/-! ### Witnesses for the statements about core instructions -/

/-- Whether core 0 issues an instruction, as a value that evaluates. -/
def issues (s : State) (o : Op) (f : Fields) : Bool :=
  decide ((s.core 0).run = .running) && decide (fetch s 0 = .inr (o, f)) && (s.core 0).guarded f
/-- It is the hypothesis of the statements. -/
theorem issues_iff (s : State) (o : Op) (f : Fields) : issues s o f = true ↔ Issues s 0 o f := by
  simp [issues, Issues, and_assoc]

/-- Core 0 issues an instruction with its legal fields. -/
def issuing (k : Core) (o : Op) : Bool := issues (at_ k o) o (legal o)
/-- Core 0 issues an instruction with other fields. -/
def withFields (k : Core) (o : Op) (f : Fields) : Bool := issues (running k (encodeWord o f)) o f

theorem witness_RegisterFile : (1 : BitVec 5) ≠ 0 ∧ (2 : BitVec 5) ≠ 1 ∧ (1 : Nat) ≠ 0 ∧ (2 : Nat) ≠ 1 := by decide

/-- The four cases of the end of an instruction, with the counts 2 and 1 at the boundary. -/
theorem witness_next : ({ } : Core).loops = [] ∧ (⟨0, 1, 2⟩ : Loop).stop ≠ ({ } : Core).pc ∧ (⟨0, 0, 2⟩ : Loop).stop = ({ } : Core).pc ∧
    1 < (⟨0, 0, 2⟩ : Loop).count ∧ (⟨0, 0, 1⟩ : Loop).count ≤ 1 := by decide

theorem witness_BranchesAndLoops :
    (issuing { loops := [⟨0, 3, 2⟩] } .br ∧ (∀ l ∈ [(⟨0, 3, 2⟩ : Loop)], l.stop ≠ 0) ∧
      ∀ l ∈ [(⟨0, 3, 2⟩ : Loop)].head?, l.start ≤ bits (legal .br).imm.toNat 0 11 ∧ bits (legal .br).imm.toNat 0 11 ≤ l.stop) ∧
    (issuing { gs 3 0 with loops := [⟨0, 3, 2⟩] } .bri ∧
      ∀ l ∈ [(⟨0, 3, 2⟩ : Loop)].head?, l.start ≤ bits ((gs 3 0).getG 2).toNat 0 11 ∧ bits ((gs 3 0).getG 2).toNat 0 11 ≤ l.stop) ∧
    (issuing { loops := List.replicate 3 ⟨0, 3, 2⟩ } .loop ∧ (List.replicate 3 (⟨0, 3, 2⟩ : Loop)).length < 4 ∧
      0 < bits (legal .loop).imm.toNat 0 11 ∧ bits (legal .loop).imm.toNat 0 11 ≤ 3 ∧ bits (legal .loop).imm.toNat 16 16 ≠ 0) ∧
    (issuing { loops := [⟨0, 3, 2⟩] } .brk ∧ (⟨0, 3, 2⟩ : Loop).stop ≠ 0) := by
  decide

/-- LOOP with a count of zero. -/
theorem witness_loop_none :
    withFields {} .loop { legal .loop with imm := 3 } ∧
    bits (3 : Word).toNat 16 16 = 0 ∧ 0 < bits (3 : Word).toNat 0 11 := by
  decide

/-- The last word of the scratchpad can be accessed in place. -/
theorem accessible_clean (k : Core) (a n al : Nat) (h : a + n ≤ 0x1_8000) (h' : a % al = 0) (hb : k.badWords = []) : k.Accessible a n al :=
  ⟨h, h', fun _ _ _ => by simp [hb]⟩

theorem witness_ScalarMemory :
    (∀ o ∈ [Op.ldw, .ldh, .ldb, .stw, .sth, .stb], issuing (gs 0x1_7FFC 0) o) ∧ (gs 0x1_7FFC 0).Accessible 0x1_7FFC 4 4 ∧
    (gs 0x1_7FFC 0).Accessible 0x1_7FFE 2 2 ∧ (gs 0x1_7FFC 0).Accessible 0x1_7FFF 1 1 ∧
    (issuing (gs 0x1_8000 0) .ldw ∧ 0x1_8000 ≤ 0x1_8000) ∧ (issuing (gs 0x1_7FFE 0) .stw ∧ 0x1_7FFE < 0x1_8000 ∧ 0x1_7FFE % 4 ≠ 0) ∧
    (issuing { gs 16 0 with badWords := [1] } .ldb ∧ 16 % 1 = 0 ∧ 16 / 16 ∈ [1]) := by
  refine ⟨by decide, accessible_clean _ _ _ _ (by decide) (by decide) rfl,
    accessible_clean _ _ _ _ (by decide) (by decide) rfl, accessible_clean _ _ _ _ (by decide) (by decide) rfl, ?_, ?_, ?_⟩
  all_goals decide

theorem witness_LaneResults :
    (issuing {} .vcvt ∧ (fmtOf (bits (legal .vcvt).imm.toNat 0 4)).isSome = true ∧ roundingOf (legal .vcvt).m ≠ .sr) ∧
    (withFields {} .vcvt { legal .vcvt with m := 2 } ∧
      roundingOf ({ legal .vcvt with m := 2 } : Fields).m = .sr ∧ (({} : Core).getG 0).toNat + 32 ≤ 0x1_8000) ∧
    (issuing {} .vnl ∧ ∀ i < 32, ∀ e ∈ entriesRead (readBytes [] 0 1024) (({} : Core).lane 2 i), 64 * 0 + e ∉ ([] : List Nat)) := by
  refine ⟨by decide, by decide, by decide, fun _ _ _ _ => by simp⟩

theorem witness_VectorMemory :
    (issuing {} .vld ∧ LanesFit 4 true (({} : Core).strideLanes (legal .vld)) ∧ laneBytes (legal .vld) = 4) ∧
    (issuing {} .vldx ∧ LanesFit 4 false (({} : Core).indexLanes (legal .vldx))) ∧
    (issuing {} .vst ∧ LanesFit 4 true (({} : Core).strideLanes (legal .vst)) ∧
      coversWord 4 (({} : Core).strideLanes (legal .vst)) 7 = true) ∧
    (issuing {} .vstx ∧ LanesFit 4 false (({} : Core).indexLanes (legal .vstx))) := by
  unfold LanesFit; decide +kernel

/-! ### The tensor queue, waits, hooks, faults -/

/-- The row of the witness still waits for a fill. -/
theorem witness_fill_comes : ∀ o ∈ allOps, noFillComes (at_ {} o) 0 = false := by decide +kernel

theorem witness_TensorQueueEntries :
    (tensorPair (legal .tmma).imm).isSome = true ∧ tensorK (legal .tmma).imm = 32 ∧
    (issuing {} .tmma ∧ bits (({} : Core).getG 3).toNat 14 18 = 0) ∧
    (withFields (gs 0 16) .drain { legal .drain with m := 2, b := 3 } ∧ (drainShape (legal .drain).imm).2.1 = 32 ∧ 16 + 272 ≤ 0x1_8000) ∧
    (issuing {} .tjoin ∧ stride (bits (legal .tjoin).imm.toNat 0 12) 256 = 256 ∧ 15 * 256 + 256 ≤ 0x1_8000) ∧
    issuing {} .exportTile ∧ issuing {} .tclr ∧ issuing {} .srel ∧
    (issuing { tq := List.replicate 4 ⟨0, .tclr 0⟩ } .srel ∧ 4 ≤ (List.replicate 4 (⟨0, .tclr 0⟩ : TensorEntry)).length) := by
  decide +kernel

/-- A core whose queue's head is an entry, with both slots FULL. -/
def heading (op : TensorOp) : Core :=
  { run := .running, tq := [⟨4, op⟩], slot0 := { fill := .full }, slot1 := { fill := .full } }

theorem witness_TensorQueueHead :
    ((heading (.tmma false 1 0 0 0x122)).run = .running ∧ (heading (.tmma false 1 0 0 0x122)).tq = [⟨4, .tmma false 1 0 0 0x122⟩] ∧
      tensorPair 0x122 = some (.e5m2, .e5m2) ∧ ((heading (.tmma false 1 0 0 0x122)).slot (bits (0 : Word).toNat 13 1)).fill = .full) ∧
    (heading (.tclr 1)).tq = [⟨4, .tclr 1⟩] ∧ ((heading (.srel 1)).slot 1).fill = .full ∧
    execute (heading (.tclr 1)) false (.tclr 1) = .done ((heading (.tclr 1)).clearTile 1) ∧
    execute { heading (.srel 0) with slot0 := {} } false (.srel 0) = .wait ∧
    execute { heading (.srel 0) with slot0 := {} } true (.srel 0) = .fault 0x08 :=
  ⟨by decide, by decide, by decide, rfl, rfl, rfl⟩

/-- The core after the entry at the head of its queue. -/
def executed (k : Core) (op : TensorOp) : Core :=
  match execute k false op with
  | .done k' => k'
  | _ => k

/-- An export writes S, E and K of an entry in its place, and m[3] clears the tile (R70, R71, R134). -/
theorem test_export : let k := executed { heading (.exportTile 0 0 0 8) with acc := [(1, ⟨5, 3, true⟩)] } (.exportTile 0 0 0 8)
    readNum k.scratch 16 16 = 5 * 2 ^ 16 + 3 * 2 ^ 6 + 32 ∧ k.kerf = true ∧ k.acc = [] := by decide +kernel
/-- The XP128 value of an export joins an empty entry as that entry (R71). -/
theorem test_tjoin : (executed { scratch := writeNum [] 16 16 (5 * 2 ^ 16 + 3 * 2 ^ 6 + 32) } (.tjoin 0 0 0)).entry 0 0 1 = ⟨5, 3, true⟩ := by
  decide +kernel
/-- A drain of an entry that holds 1 writes FP32's 1 (R51, R73). -/
theorem test_drain : readNum (executed { acc := [(0, ⟨1, 511, false⟩)] } (.drain 0 0 0 0xB 0)).scratch 0 4 = 0x3F80_0000 := by decide +kernel
/-- The example of R77: an MXFP4 block whose largest entry is 2,686 has scale code 0x88, and the entry becomes 6. -/
theorem test_mx_drain : let k := executed { acc := [(0, ⟨2686, 511, false⟩)] } (.drain 0 0 0 0x7 0)
    byteAt k.scratch 256 = 0x88 ∧ byteAt k.scratch 0 = 0x07 := by decide +kernel

theorem witness_TensorQueueHead_writes :
    (match execute (heading (.tjoin 1 0 0)) false (.tjoin 1 0 0) with | .done _ => true | _ => false) = true ∧
    (match execute (heading (.drain 2 0 0 0xB 8)) false (.drain 2 0 0 0xB 8) with | .done _ => true | _ => false) = true ∧
    (match execute (heading (.drain 2 0 0 0x7 2)) false (.drain 2 0 0 0x7 2) with | .done _ => true | _ => false) = true ∧
    fmtOf (bits (0xB : Word).toNat 0 4) = some .fp32 ∧ Fmt.fp32.mx = false ∧ fmtOf (bits (0x7 : Word).toNat 0 4) = some .mxfp4 ∧
    (heading (.tjoin 1 0 0)).badWords = [] ∧ ((specialEntry .nan false).value.special = true ∧ ({} : Entry).value.special = false) ∧
    ((5 * 2 ^ 16 + 3 * 2 ^ 6 + 32) / 2 ^ 16 = (5 : BitVec 112).toNat ∧ bits (5 * 2 ^ 16 + 3 * 2 ^ 6 + 32) 6 10 = (3 : BitVec 10).toNat ∧
      bit (5 * 2 ^ 16 + 3 * 2 ^ 6 + 32) 5 = true ∧ bits (5 * 2 ^ 16 + 3 * 2 ^ 6 + 32) 0 5 = 0) ∧
    decodeElem .fp32 0x3F80_0000 = .fin (2 ^ 23) (-23) ∧ decodeElem .int8 0x80 = .fin (-128) 0 := by decide +kernel

theorem witness_later : (TensorOp.exportTile 0 0 0 0).writes = true ∧ (TensorOp.tclr 1).writes = false ∧
    (match execute { heading (.exportTile 0 0 0 0) with later := [(0, 4, 1)] } false (.exportTile 0 0 0 0) with
      | .done _ => true | _ => false) = true := by decide +kernel

/-- A store that issues while two entries wait is later than both, and than the second alone once the first has left (R136). -/
theorem test_later : (done { gs 16 5 with tq := [⟨0, .tclr 0⟩, ⟨0, .tclr 1⟩] } .stw).later = [(16, 4, 2)] ∧
    (done { gs 16 5 with tq := [⟨0, .tclr 0⟩, ⟨0, .tclr 1⟩] } .stw).pop.later = [(16, 4, 1)] ∧
    (done { gs 16 5 with tq := [⟨0, .tclr 0⟩] } .stw).pop.later = [] := by decide +kernel

/-- SREL at the head empties its slot (R97). -/
theorem test_srel_releases :
    ((after (.tensorQueueEntry ⟨0, {}⟩) (State.reset.setCore 0 (heading (.srel 1)))).core 0).slot1.fill = .empty ∧
      ((after (.tensorQueueEntry ⟨0, {}⟩) (State.reset.setCore 0 (heading (.srel 1)))).core 0).tq = [] := by decide

/-- A core whose entry (0, 0) of tile 0 has K set. -/
def kerfed : Core := { acc := [(0, { s := 1, e := 5, k := true })], slot0 := { fill := .full } }

theorem witness_ClearAndKerf :
    (floorLog (1 : Int).natAbs (-416) + 416 = 0 ∧ floorLog (1 : Int).natAbs 606 + 416 = 0x3FE) ∧
    (xp128 (2 ^ 16 + 2 ^ 6 * 5) = (({ s := 1, e := 5, k := false } : Entry), true) ∧ (5 : BitVec 10) ≠ 0x3FF) ∧
    ((kerfed.entry 0 0 0).k = true ∧ execute kerfed true (.srel 0) = .done (kerfed.setSlot 0 {})) ∧
    (kerfed.entry 0 0 0).k = true ∧ execute kerfed true (.tclr 0) = .done (kerfed.clearTile 0) :=
  ⟨by decide +kernel, by decide +kernel, ⟨by decide, rfl⟩, by decide, rfl⟩

theorem witness_AccumulationOrderFree :
    let join (x : Entry) : Machine.Num ⊕ Nat → Entry
      | .inl p => joinProduct x p
      | .inr n => joinXp128 x n
    ([Sum.inl (Machine.Num.fin 1 0), .inl (.fin 3 40)] : List (Machine.Num ⊕ Nat)).Perm [.inl (.fin 3 40), .inl (.fin 1 0)] ∧
    (-416 ≤ floorLog (3 : Int).natAbs 40 ∧ floorLog (3 : Int).natAbs 40 + 416 ≤ 0x3FE) ∧
    ([Sum.inl (Machine.Num.fin 1 0), .inl (.fin 3 40)].foldl join {}).k = false ∧
    ([Sum.inl (Machine.Num.fin 3 40), .inl (.fin 1 0)].foldl join {}).k = false :=
  ⟨.swap _ _ _, by decide +kernel, by decide +kernel, by decide +kernel⟩

theorem witness_Waits :
    (issuing { slot0 := { fill := .full } } .swait ∧ noFillComes (at_ { slot0 := { fill := .full } } .swait) 0 = false) ∧
    (issuing {} .swait ∧ ({} : Core).slot0.fill ≠ .full) ∧
    (issuing { slot0 := { fill := .full }, tq := [⟨0, .srel 0⟩] } .swait ∧ ({} : Core).namedSlot (legal .swait) = 0 ∧
      noFillComes (at_ { slot0 := { fill := .full }, tq := [⟨0, .srel 0⟩] } .swait) 0 = false) ∧
    (issuing {} .waitf ∧ bits (legal .waitf).m.toNat 0 2 = 0 ∧ BitVec.ofNat 32 (readNum [] 0 4) = ({} : Core).getG 3) ∧
    (issuing (gs 0 1) .waitf ∧ BitVec.ofNat 32 (readNum [] 0 4) ≠ (gs 0 1).getG 3) ∧
    (issuing {} .tsync ∧ ([] : List TensorEntry).length ≤ bits (legal .tsync).imm.toNat 0 3) ∧
    (issuing { tq := [⟨0, .tclr 0⟩] } .tsync ∧ bits (legal .tsync).imm.toNat 0 3 < [(⟨0, .tclr 0⟩ : TensorEntry)].length) ∧
    (issuing {} .mwait ∧ ([] : List Xfer).length ≤ bits (legal .mwait).imm.toNat 0 4) ∧
    (issuing { xfers := [⟨0, false, 0, 0, 4, 0, 1, false, false, 0, 0, 0, 0, [], 0⟩] } .mwait ∧ bits (legal .mwait).imm.toNat 0 4 < 1) := by
  decide +kernel

theorem witness_SystemAndBarriers : bits (legal .mfs).imm.toNat 0 8 = 0x0C ∧ withFields {} .mfs { legal .mfs with imm := 0 } ∧
    bits ({ legal .mfs with imm := 0 } : Fields).imm.toNat 0 8 ∉ [0x0C, 0x10, 0x11] ∧
    (withFields {} .mfs { legal .mfs with imm := 0x10 } ∧ bits ({ legal .mfs with imm := 0x10 } : Fields).imm.toNat 0 8 = 0x10 + 0) ∧
    (withFields {} .mfs { legal .mfs with imm := 0x11 } ∧ bits ({ legal .mfs with imm := 0x11 } : Fields).imm.toNat 0 8 = 0x10 + 1) := by
  decide +kernel

/-- CORE_ID is (8y + x) × 128 + 16r + c, and a read of it writes the destination (R86). -/
theorem test_mfs : ((after (.mfs ⟨0, {}⟩ { legal .mfs with imm := 0 }) (running (gs 0 0) (encodeWord .mfs { legal .mfs with imm := 0 }))).core 0).getG 1 = 0 := by
  decide +kernel

/-- A transfer that is outstanding. -/
def xfer : Xfer := ⟨3, false, 0, 0x200_0000_0040, 64, 0x100, 9, false, false, 0, 0, 0, 0, [], 0⟩
/-- A descriptor of four bytes from address 0 to address 0, its completion word at 0. -/
def descriptor : Bytes := leBytes 8 0 ++ leBytes 8 0 ++ leBytes 4 4 ++ leBytes 12 0

theorem witness_MoverAndHooks :
    (issuing { xfers := List.replicate 8 xfer } .movd ∧ 8 ≤ (List.replicate 8 xfer).length) ∧
    (issuing { scratch := writeBytes [] 0 descriptor } .movd ∧ descriptorFault (readBytes (writeBytes [] 0 descriptor) 0 32) = none ∧
      (List.replicate 7 xfer).length < 8) ∧
    (issuing {} .tcoll ∧ (at_ {} .tcoll).partOf 0 = none ∧ ((at_ {} .tcoll).bay 0).posts.length < 4) ∧
    (issues ((at_ {} .tcoll).setBay 0 { part := 7 }) .tcoll (legal .tcoll) ∧ ((at_ {} .tcoll).setBay 0 { part := 7 }).partOf 0 = some 7) ∧
    (issues ((at_ {} .tcoll).setBay 0 { posts := List.replicate 4 (0, []) }) .tcoll (legal .tcoll) ∧
      4 ≤ (List.replicate 4 ((0, []) : Nat × Bytes)).length) ∧
    (issuing (gs (0x1_8000 - 32) (262144 - 16)) .lsend ∧ (0x1_8000 - 32) + 32 ≤ 0x1_8000 ∧ (262144 - 16) + 16 ≤ 262144 ∧
      (legal .lsend).m.getLsbD 0 = false ∧ 16 * bits (legal .lsend).imm.toNat 0 13 = 16) ∧
    (issuing { gs 16 0 with badWords := [2] } .lsend ∧ 16 % 16 = 0 ∧ 16 < 16 * 2 + 16 ∧ 16 * 2 < 16 + 32) := by
  decide +kernel

/-- A core of a bay that runs a step. -/
theorem witness_InstructionFaults :
    ((at_ { xferErr := some 5 } .nop).core 0).xferErr = some 5 ∧
    ((running {} 0).setRow 0 { progLen := 0 }).core 0 = { run := .running } ∧
    (((running { badImem := [0] } 0).core 0).pc ∈ ((running { badImem := [0] } 0).core 0).badImem ∧
      ((running { badImem := [0] } 0).core 0).pc < ((running { badImem := [0] } 0).row 0).progLen) ∧
    decodeWord 0xD000_0000_0000_0000 = none ∧
    ((at_ {} .nop).workers 0 ≠ [] ∧ 0 ∈ (at_ {} .nop).workers 0) ∧
    (issuing { loops := [⟨0, 0, 2⟩] } .br ∧ ∃ l ∈ [(⟨0, 0, 2⟩ : Loop)], l.stop = 0) ∧
    (issuing { loops := [⟨0, 2, 2⟩] } .br ∧ ∃ l ∈ [(⟨0, 2, 2⟩ : Loop)].head?, 3 < l.start ∨ l.stop < 3) ∧
    (issuing { loops := [⟨1, 2, 2⟩] } .bri ∧ ∃ l ∈ [(⟨1, 2, 2⟩ : Loop)].head?, 0 < l.start ∨ l.stop < 0) ∧
    issuing { loops := List.replicate 4 ⟨0, 2, 2⟩ } .loop ∧ issuing { loops := [⟨0, 0, 2⟩] } .loop ∧ issuing {} .brk ∧
    (issuing { pc := 3 } .loop ∧ bits (legal .loop).imm.toNat 0 11 ≤ ({ pc := 3 } : Core).pc) ∧
    (issuing { loops := [⟨0, 2, 2⟩] } .loop ∧ ∃ l ∈ [(⟨0, 2, 2⟩ : Loop)].head?, l.stop < bits (legal .loop).imm.toNat 0 11) := by
  decide +kernel

theorem witness_GuardFalse :
    let f : Fields := { legal .add with pr := 1 }
    fetch (running {} (encodeWord .add f)) 0 = .inr (.add, f) ∧ ((running {} (encodeWord .add f)).core 0).getP f.pr.toNat = f.pn := by
  decide +kernel

/-- A core whose descriptor at 0 has a reserved completion value. -/
def misdescribed : Core := { scratch := writeBytes [] 0 (zeroBytes 24 ++ List.replicate 4 0xFF ++ zeroBytes 4) }
/-- An instruction with a false guard faults where it is illegal, and else takes its cycle (R100, R133, R139). -/
theorem test_illegal_unguarded :
    let f (o : Op) : Fields := { legal o with pr := 1 }
    let at1 (k : Core) (o : Op) : Core := (after (o.instr 0 (f o)) (running k (encodeWord o (f o)))).core 0
    (at1 (gs 0 0x4000) .tmma).run = .faulted 0x01 ∧ (at1 (gs 0 0) .tmma).pc = 1 ∧
    (at1 misdescribed .movd).run = .faulted 0x01 ∧ (at1 {} .movd).pc = 1 := by decide +kernel

theorem witness_GuardFalse_illegal :
    let f (o : Op) : Fields := { legal o with pr := 1 }
    (fetch (running (gs 0 0x4000) (encodeWord .tmma (f .tmma))) 0 = .inr (.tmma, f .tmma) ∧ bits ((gs 0 0x4000).getG (f .tmma).b).toNat 14 18 ≠ 0) ∧
    fetch (running misdescribed (encodeWord .movd (f .movd))) 0 = .inr (.movd, f .movd) ∧ misdescribed.badWords = [] ∧
    0xFFFF_0000 ≤ field (readBytes misdescribed.scratch 0 32) 0x18 4 := by decide +kernel

/-! ### Barriers, transfers and steps -/

/-- Partition 0 owns bay row 0 with a plain part of 2 GiB, and bay 0 belongs to it. -/
def member : State :=
  let s := (((State.reset.setN Obj.partRows 1 1).setN Obj.partQuota 1 2).setN Obj.partState 1 3).setN Obj.partOwner 1 0
  (s.setPart 0 { extents := [0, 1] }).setBay 0 { part := 0 }

/-- Partition 0 with core 0 of bay 0 in some state, and the bay's first row in use. -/
def memberCore (k : Core) : State := (member.setRow 0 { idle := false }).setCore 0 k

theorem witness_DieBarriers :
    ((coresOfRow 0).foldl (fun s c => s.setCore c { run := .atBard 5 }) (memberCore {})).arrived 0 = some (List.replicate 16 (true, 5)) ∧
    (memberCore {}).partOf 0 = some 0 ∧ ((memberCore {}).bay 0).token = none ∧
    ((memberCore {}).setBay 0 { part := 0, release := some true }).bay 0 = { part := 0, release := some true } ∧
    ((memberCore {}).setBay 0 { part := 0, release := some false }).bay 0 = { part := 0, release := some false } := by decide +kernel

/-- The 16 cores of row 0, in states given by `k`; bay 1 has given a token or none. -/
def arriving (k : Nat → Core) (t : Option Byte) : State :=
  (((coresOfRow 0).foldl (fun s c => s.setCore c (k c)) (memberCore {})).setBay 1 { part := 0, token := t })
/-- All of them at BARD, bay 0's token given too. -/
def tokened (t : Byte) : State := (arriving (fun _ => { run := .atBard 5 }) (some t)).setBay 0 { part := 0, token := some 5 }

theorem witness_DieBarriers_arrivals :
    let k (r : Run) : Core := { run := r }
    (0 ∈ (arriving (fun _ => k .running) none).workers 0 ∧ (k .running).halted = false ∧ (k .running).barrier = none) ∧
    (∀ r ∈ [Run.halted, .atBarb 5, .atBard 5], (k r).halted = true ∨ (k r).barrier.isSome = true) ∧
    ((k (.atBarb 5)).barrier ≠ (k (.atBarb 6)).barrier ∧ (k (.atBarb 5)).barrier ≠ (k (.atBard 5)).barrier) ∧
    ((k (.atBarb 5)).barrier = some (false, 5) ∧ (k (.atBard 5)).barrier = some (true, 5)) ∧
    ((member.bay 0).release = none ∧ member.partOf 0 = some 0 ∧ State.reset.partOf 0 = none) := by
  decide +kernel

/-- Bay 0 owes its token, no bay has given one, and all have, with equal ids and with different ones. -/
theorem witness_DieBarriers_root :
    let owes (s : State) (y : Nat) : Bool := (s.bay y).token.isNone && (s.workers y).any fun c => !(s.core c).halted
    (0 ∈ (arriving (fun _ => { run := .atBard 5 }) (some 5)).baysOf 0 ∧ owes (arriving (fun _ => { run := .atBard 5 }) (some 5)) 0 = true) ∧
    (member.baysOf 0).all (fun y => (member.bay y).token.isNone) = true ∧
    (∀ t ∈ [(5 : Byte), 6], 1 ∈ (tokened t).baysOf 0 ∧ ((tokened t).bay 1).token = some t ∧ ((tokened t).bay 0).token = some 5 ∧
      (tokened t).baysOf 0 = (member.setBay 1 { part := 0 }).baysOf 0 ∧ ((tokened t).baysOf 0).all (fun y => !owes (tokened t) y) = true) := by
  decide +kernel

/-- Cores at one BARB go on past it; with two ids they fault with BARRIER_MISMATCH (R102). -/
theorem test_barb :
    let k (n : Byte) : Core := (after (.barb ⟨0, {}⟩ (legal .barb)) (let s := arriving (fun _ => { run := .atBarb n }) none
      (s.setRow 0 { s.row 0 with progLen := 1, imem := put 0 [] 0 (encodeWord .barb (legal .barb)) }).setCore 0 { run := .running })).core 1
    (k 5).run = .running ∧ (k 6).run = .faulted 0x07 := by decide +kernel

/-- The transfer of the witness has started. -/
def xferOn : Xfer := { xfer with started := true }

theorem witness_Transfers :
    ((memberCore { xfers := [xfer] }).core 0).xfer 3 = some xfer ∧ (memberCore {}).partOf (bayOf 0) = some 0 ∧
    (hitTransfer (memberCore { xfers := [xferOn] }) 0 0 xferOn).isSome = true ∧
    (readRange 2 (memberCore { xfers := [xferOn] }) 0 0 64).2.1 = 0x00 ∧
    (writeRange (memberCore { xfers := [xferOn] }) 0 0x200_0000_0040 (zeroBytes 64)).2 = 0x00 ∧
    (moverPlace (memberCore {}) xfer.src = some (.here 0) ∧ moverPlace (memberCore {}) xfer.dst = some (.here 0x200_0000_0040)) ∧
    (0 ∈ (memberCore { run := .running }).workers (bayOf 0) ∧ xfer.compOff / 16 ∉ ([] : List Nat)) := by
  decide +kernel

/-- A finished transfer writes its completion word (R140). -/
theorem test_completion_word :
    byteAt ((after (.transferComplete ⟨0, {}⟩ 3) (memberCore { run := .running, xfers := [{ xfer with started := true }] })).core 0).scratch 0x100 = 9 := by
  decide +kernel

/-- A step that a partition runs. -/
def stepRun (ph : StepPhase) : StepRun := ⟨5, 1, 0, 0, ph, 0, 7, 8, [], [], 0, [], [], [], false, none, false, false, false⟩
/-- Partition 0 runs a step on core 0. -/
def stepping (k : Core) (ph : StepPhase) : State :=
  (memberCore k).setPart 0 { extents := [0, 1], step := some (stepRun ph) }

theorem witness_StepCourse :
    (0 ∈ (stepping { run := .faulted 0x0A } .running).workers 0 ∧ (stepping {} .running).partOf 0 = some 0 ∧
      (stepping {} .running).serving = false) ∧
    (∀ b ∈ ((List.range 8).foldl (fun s b => s.setBay b { s.bay b with part := 0, loaded := true }) (stepping {} .loading)).baysOf 0,
      (((List.range 8).foldl (fun s b => s.setBay b { s.bay b with part := 0, loaded := true }) (stepping {} .loading)).bay b).loaded = true) ∧
    (((stepping {} .running).setRow 0 {}).ran 0 = true ∧ (stepping {} .running).collective 0 = false ∧ (stepping {} .running).rowsDue 0 = false) ∧
    (((stepping {} .stopping).part 0).step = some (stepRun .stopping) ∧ (stepping {} .stopping).collective 0 = false) ∧
    ((stepping {} .loading).bay 0).loaded = false := by
  decide +kernel

/-- A request of a mover of partition 0 that waits for its reply. -/
def outstanding : Request := ⟨0, .xfer 0 3, 0, 0, 0, 1, true, 0, 64⟩
/-- A stopped step ends once its movers are drained (R411). -/
theorem test_drained : let s := stepping {} .stopping
    ((after (.stepComplete 0) { s with net := { s.net with requests := [outstanding] } }).part 0).step = some (stepRun .stopping) ∧
    ((after (.stepComplete 0) s).part 0).step = none := by decide +kernel

/-- A core that starts has PC 0 and the step's arguments, and keeps its scratchpad (R116). -/
theorem test_start : ((after (.startToken 0) ((List.range 8).foldl (fun s b => s.setBay b { s.bay b with part := 0, loaded := true })
    (stepping { scratch := [(3, 9)], pc := 5 } .loading))).core 0) = { run := .running, arg0 := 7, arg1 := 8, scratch := [(3, 9)] } := by
  decide +kernel

/-! ### Streams, memory, contexts -/

/-- A controller reads stream 4 for bay 0, which has credit for one flit. -/
def streaming : State := member.setMc 0 { streams := [(15, some ⟨0, 4, 0, 1, 0, 1, [0], [(0, 1)], 0, false⟩)] }
/-- A fill of 64 bytes of flit 0 of stream 4. -/
def fill : FillDesc := ⟨4, 9, 0, 64, 0, 1, 1⟩
/-- Row 7 of bay 0 waits for a fill, whose flit is staged where `staged` says so, and else has arrived. -/
def filling (staged : Bool) : State :=
  let f : StreamFlit := ⟨4, 0, List.replicate 512 1, 0, [0, 1]⟩
  (member.setRow 7 { hasList := true, fills := [fill] }).setBay 0 {
    part := 0,
    stages := [⟨4, 8, if staged then [f] else [], 2, 0⟩],
    inflight := if staged then [] else [f] }

theorem witness_Streams :
    (let x : StreamCtx := ⟨0, 4, 0, 1, 0, 1, [0], [(0, 1)], 0, false⟩
     let m := streaming.mc 0
     let rs := readableCtxs streaming m
     look none m.streams 15 = some x ∧ x.readable streaming = some 0 ∧ resolve streaming 0 0 = some (.mem 0) ∧
      retraining streaming 0 512 = false ∧ rs.length = 1 ∧ (∀ e ∈ rs, e.2.part ∉ m.round) ∧
      look none (m.newRound 0 rs).streams 15 = some x ∧ 0 ∉ (m.newRound 0 rs).round ∧ x.served < x.weight ∧
      onFailedChannel streaming 0 512 = false ∧ streaming.bad = []) ∧
    (let f : StreamFlit := ⟨4, 0, List.replicate 512 1, 0, [0, 1]⟩
     (filling false).nextFlit 0 ((filling false).bay 0).inflight [] = some f ∧ (filling false).wanted 0 4 0 = [0]) ∧
    (((filling true).row 7).fetched ≠ 0 ∧ (∀ c ∈ coresOfRow 7, ((filling true).core c).slot0.fill = .empty) ∧
      ((((filling true).bay 0).stages.find? (·.stream == 4)).bind fun g => g.read (fill.start 0) fill.len).isSome = true) ∧
    (let s := member.setRow 7 { hasList := true, descLeft := 1, fills := List.replicate 17 fill }
     s.partOf 0 = some 0 ∧ (s.row 7).fetched = 16 ∧ rangeWaits s 0 0 16 = false ∧ (readRange 9 s 0 0 16).2.1 = 0x00) := by
  decide +kernel

/-- A round ends where every partition with a readable stream has read (R163), and a partition that has read waits for the next round. -/
theorem test_round :
    (let m := { streaming.mc 0 with round := [0] }
     (m.newRound 0 (readableCtxs streaming m)).round = []) ∧
    (let x : StreamCtx := ⟨1, 5, 0, 1, 0, 1, [1], [(1, 1)], 0, false⟩
     let m := { streaming.mc 0 with round := [0] }
     (m.newRound 0 [(15, x)]).round = [0]) := by decide +kernel

/-- A fill whose bytes are staged is FILLING with its tag before it is written (R86, R95). -/
theorem test_filling : let k := (beginFill (filling true) 7).core 127
    k.slot0.fill = .filling ∧ k.slot0.tag = 9 := by decide +kernel

/-- A fill makes the slot of all 16 cores FULL with its tag and bytes (R95, R156). -/
theorem test_fill : let k := (after (.fillWrite 0 7) (filling true)).core 127
    k.slot0.fill = .full ∧ k.slot0.tag = 9 ∧ byteAt k.slot0.data 63 = 1 ∧ byteAt k.slot0.data 64 = 0 := by decide +kernel
/-- A flit that no fill names is discarded, and all of its space is free at once; of one that a fill names in part, the rest is (R157). -/
theorem test_flit_discarded : ((after (.streamFlit 0) ((filling false).setRow 7 {})).bay 0).stages = [⟨4, 8, [], 10, 0⟩] ∧
    (((after (.streamFlit 0) (filling false)).bay 0).stages.map (·.unreturned)) = [9] := by decide +kernel

/-- The controllers' channels are trained. -/
def trained : State := member.setB Obj.raiseChTrained 0 (List.replicate 24 0xFF)
/-- The request that reads or writes the last burst of package 0's first GiB. -/
def request (w : Option Bytes) : MemReq := ⟨gib - 64, w, 64, 0, none, none⟩

theorem witness_MemoryBursts :
    (request none).addr < memSize ∧ (placeOf trained (gib - 64)).1 = 0 ∧ (placeOf trained (memSize - 64)).1 = 23 ∧
    trained.channelUp 0 (channelOf (placeOf trained (gib - 64)).2).1 = true ∧
    trained.channelUp 23 (channelOf (placeOf trained (memSize - 64)).2).1 = true ∧ (gib - 64) % 64 = 0 ∧
    (gib - 1) % 64 + [(7 : Byte)].length = 64 ∧ (gib - 2) % 64 + [(7 : Byte)].length < 64 ∧ (0 : Nat) ∉ trained.bad ∧ trained.power.resting = false ∧
    onFailedChannel trained (gib - 64) 64 = false ∧ retraining trained (gib - 64) 64 = false ∧ retraining trained (gib - 64) 1 = false := by
  decide +kernel

/-- A state in which RETRAIN_CHANNEL runs for a channel. -/
def retrained (s : State) (u : Nat) : State := { s with raising := { s.raising with retrain := some (0x21, u, 0) } }

theorem witness_MemoryBursts_channels :
    onFailedChannel { trained with raising := { trained.raising with failedCh := [7] } } (gib - 64) 64 = true ∧
    retraining (retrained trained 7) (gib - 64) 64 = true ∧ State.reset.channelUp 0 7 = false ∧
    { State.reset.power with resting := true }.resting = true := by
  decide +kernel

/-- An uncorrectable burst that a write covers whole is correct again (R174). -/
theorem test_whole_write : (after (.controllerRequest 0 (request (some (List.replicate 64 3))) .uncorrectable)
    { trained with bad := [gib / 64 - 1] }).bad = [] := by decide +kernel

/-- Context 9 of partition 0 is bound, its page 3 mapped, with a ring of two frames left. -/
def bound (ring : List Nat) : State :=
  ((member.setN Obj.partWinpages 1 4).setN Obj.partWindows 1 1).setPart 0 { extents := [0], pool := [1], ring }
    |>.setCtx 9 { state := .bound, part := 0, slot := some 0, pages := [(3, 16384 + 5)], joistPages := [(0, (16384 + 3, 16384 + 4))],
                  record := some (16384 + 1, 16384 + 2) }

theorem witness_PagesAndScrubs :
    (((bound []).ctx 9).part = 0 ∧ ((bound []).ctx 9).state = .bound ∧ 3 < (bound []).getN Obj.partWinpages 1) ∧
    (((bound []).ctx 9).frame 3 ≠ none ∧ ((bound []).ctx 9).frame 2 = none ∧ (bound []).raising.retrain = none ∧
      (mapFails (bound []) 9 2).2 = false ∧ entryBursts (bound []) 9 2 = some (1024 * 16387, 1024 * 16388) ∧
      (mapFails { bound [] with bad := [1024 * 16387, 1024 * 16388] } 9 2).2 = true) ∧
    (allocate (bound [16390]) 0 9 2).isSome = true ∧ allocate (bound []) 0 9 2 = none ∧
    (((bound []).bay 0).joist = [] ∧ spanPage (bound []) 0 3 = .inr (9, 3) ∧ retraining (bound []) (64 * (1024 * 16387)) 64 = false ∧
      unreadable (bound []) (1024 * 16387) = false ∧
      unreadable { bound [] with bad := [1024 * 16387, 1024 * 16388] } (1024 * 16388) = true) ∧
    ((bound []).power.resting = false ∧ (((bound []).setMc 1 { scrub := [16390] }).mc 1).scrub = [16390] ∧
      (bound []).raising.failedCh = [] ∧ (bound []).raising.retrain = none) ∧
    ((retrained (bound []) 15).raising.retrain = some (0x21, 15, 0) ∧ 15 / 8 = (1 : Fin 24).val ∧
      { (bound []).raising with failedCh := [15] }.failedCh = [15] ∧ { (bound []).power with resting := true }.resting = true) ∧
    (holdersOf (bound []) 23 = [23] ∧ ((bound []).mc 23).scrub = [] ∧
      ({ bound [] with scrubExt := [23] }.scrubExt.find? fun e =>
        (holdersOf (bound []) e).contains 23 && !(look [] (bound []).scrubbed e).contains 23) = some 23 ∧
      (0 : Nat) ∈ holdersOf { bound [] with tiers := [(0, 2)] } 1 ∧ (1 : Nat) ∈ holdersOf { bound [] with tiers := [(0, 2)] } 1) := by
  decide +kernel

/-- Two frames taken together come from two controllers, though the ring's first two lie on one (R190). -/
theorem test_hand_out : (handOut 2 24 [16384, 16385, 32768] 1).map (·.1) = some [16384, 32768] := by decide

/-! ### Sampler rows -/

/-- Context 9 is active in partition 0's step with one draft, 5, and a vocabulary of 8. -/
def sampling (e : List Engine) : State :=
  let t : Token := ⟨0, 9, [5], [], 0, 0xFF, [], false, 0, 0, 0, 0⟩
  ((stepping {} .running).setPart 0 { extents := [0], pool := [1], step := some { stepRun .running with tokens := [t] } })
    |>.setCtx 9 { state := .active, part := 0, slot := some 0, params := { vocab := 8 }, record := some (16384 + 1, 16384 + 2) }
    |>.setSu 0 { engines := e }
/-- A row of context 9 with some logits. -/
def row (n : Nat) (m : RowMask) : Engine :=
  ⟨0, 9, 0, (List.range n).map fun i => (i, some (if i = 5 then 0x4000_0000 else 0x3F80_0000)), n, false, m⟩
/-- A slice of the last four logits of the vocabulary, from core 0. -/
def slice : SliceDesc := ⟨0, 3, 0, 9, 0, 4, 4, true, false⟩

theorem witness_SamplerRows :
    ((sampling []).token 0 8 = none ∧ ((sampling []).ctx 8).state ≠ .active) ∧
    (((sampling [row 4 .ok]).token 0 9).isSome = true ∧ ((sampling [row 4 .ok]).ctx 9).state = .active ∧ slice.base + slice.count ≤ 8 ∧
      (rowsOfCtx (sampling [row 4 .ok]) 0 9).find? (fun e => !e.whole 8) = some (row 4 .ok) ∧
      (∀ i < 4, look none (row 4 .ok).logits (4 + i) = none)) ∧
    ((rowsOfCtx (sampling []) 0 9).find? (fun e => !e.whole 8) = none ∧ 0 + 0 ≤ [(5 : Word)].length) ∧
    ((rowsOfCtx (sampling [row 8 .ok]) 0 9).find? (fun e => !e.whole 8) = none ∧ 0 + 1 ≤ [(5 : Word)].length ∧ (row 8 .ok).row < [(5 : Word)].length) ∧
    (((sampling [row 0 .loading]).su 0).engines.find? (fun e => e.ctx == 9 && e.mask == .loading) = some (row 0 .loading)) ∧
    ({ sampling [row 0 .loading] with bad := [1024 * 16385, 1024 * 16386 + 1023] } : State).bad = [1024 * 16385, 1024 * 16386 + 1023] := by
  decide +kernel

/-- The unit's queue holds one descriptor, of the last four logits of context 9's row. -/
def served (e : List Engine) : State := (sampling e).setSu 0 { (sampling e).su 0 with descs := [slice] }

theorem witness_SamplerRows_served :
    (let x := ((served [row 4 .ok]).su 0).shared
     x.queued.foldl (fun l p => byShare ((served [row 4 .ok]).setSu 0 x) x p l) [] = [0] ∧ x.descs.find? (·.part == 0) = some slice) ∧
    (∀ w ∈ wordsIn slice.off 16, w ∉ ((served []).core 0).badWords) ∧
    (0 ∈ wordsIn slice.off 16 ∧ 0 ∈ (((served []).setCore 0 { badWords := [0] }).core 0).badWords) ∧
    ((sampling []).setToken 0 ⟨0, 9, [5], [], 0, 0xFF, [], true, 0, 0, 0, 0⟩).token 0 9 = some ⟨0, 9, [5], [], 0, 0xFF, [], true, 0, 0, 0, 0⟩ ∧
    ((served []).su 0).engines.length < 4 ∧ (1 : Nat) ≤ (served []).getN Obj.sampShare 1 ∧
    retraining (served []) (16385 * pageSize) pageSize = false ∧ retraining (retrained (served []) 0) 0 pageSize = true := by
  decide +kernel

/-- Grammar 2 of partition 0 has one state and allows no token of a vocabulary of 8. -/
def strict : Grammar := ⟨0, 1, 1, 0, 8, 0, 0, 0⟩
theorem witness_SamplerRows_grammar :
    let s := sampling [{ row 0 .loading with row := 1 }]
    let s := (s.setPart 0 { s.part 0 with grammars := [(2, some strict)] }).setCtx 9 { s.ctx 9 with params := { vocab := 8, grammar := 2 } }
    (match s.maskOf 9 with | .by g => decide (g = strict) | _ => false) = true ∧
    ((s.token 0 9).map fun t => strict.run s 0 (strict.state (s.ctx 9).gstate) (t.drafts.take 1)) = some none := by
  decide +kernel

theorem witness_masks : (match (sampling []).maskOf 9 with | .free => true | _ => false) = true ∧
    (match ((sampling []).setCtx 9 { (sampling []).ctx 9 with params := { vocab := 8, grammar := 2 } }).maskOf 9 with
      | .absent => true | _ => false) = true := by decide +kernel

theorem witness_RowsComplete :
    (firstWhole ((sampling [{ row 8 .ok with row := 1 }, row 8 .ok]).su 0) 9 ((sampling []).ctx 9).params.vocab = some (row 8 .ok) ∧
      ((sampling [row 8 .ok]).token 0 9).any (fun t => !t.closed) = true) ∧
    (∀ m ∈ [RowMask.absent, .grammarError, .recordError], (row 8 m).mask ≠ .loading) ∧
    drawToken { vocab := 8 } 0 [] = none ∧ drawToken { vocab := 8 } 0 [(5, 0x4000_0000)] = some (5, 1, 0) ∧
    [(5 : Word)][0]? = some 5 ∧ [(5 : Word)][1]? ≠ some 5 := by
  decide +kernel

/-- The highest logit is drawn at temperature zero; it is the draft, so the sequence goes on (R214, R218). -/
theorem test_row_accepted : (((after (.rowComplete 0 9) (sampling [row 8 .ok])).token 0 9).map fun t => (t.closed, t.rowsDone)) = some (false, 1) := by
  decide +kernel
/-- Without its draft the row closes the sequence, and COMMIT appends the token (R218, R220). -/
theorem test_row_closes : ((after (.rowComplete 0 9) (sampling [{ row 8 .ok with row := 1 }])).ctx 9).ring = [5, 5] := by
  decide +kernel

/-! ### Collectives -/

/-- The links of the module are UP in full service, it is module 0 of its rack, and partition 0 holds job 7. -/
def network : State :=
  let s := (stepping {} .running).setPart 0 { extents := [0, 1], step := some { stepRun .running with job := 7 } }
  let s := { s with pins := { s.pins with inReset := false }, fw := { s.fw with image := .runtime } }
  (upTo 6 (fun l s => s.setN Obj.linkState (l + 1) 3) (s.setR 0 0x214 3)).setN Obj.routeCoord 0 0x0100_0000

/-- A REDUCE of one chunk of 16 KiB over two members, of which this module is the first. -/
def reduce : CollReq := ⟨1, 1, 0, 1, 0, 4, 16, 0, 0, 0, 0, 0, 0, 0, 0, 0, 0, 0, 0, 0⟩
/-- A layout of one piece. -/
def layout (n : Nat) : Layout := ⟨0, n, 1, 1, 0, 0⟩
/-- Its other member. -/
def peer : Peer := { member := 1, rack := 0, module := 1, granted := 1, chunks := 1 }
/-- The collective in context 31. -/
def reducing (d : Peer) (ready : List Nat) : Coll :=
  ⟨0, 0, reduce, layout 32, layout 16, layout 16384, layout 0, 0, 0, 2, [d], ready, [], 0, false, 0⟩
/-- The module with the collective admitted. -/
def reducingIn (d : Peer) (ready : List Nat) : State := network.setColl 31 (some (reducing d ready))
/-- A collective request with a ticket. -/
def posted (ticket : Nat) : State :=
  network.setBay 0 { part := 0, posts := [(0, zeroBytes 4 ++ leBytes 2 ticket ++ zeroBytes 58)] }

/-- A core of partition 0 has faulted while the firmware serves. -/
theorem witness_StepCourse_serving :
    let s := network.setCore 0 { run := .faulted 0x0A }
    s.serving = true ∧ 0 ∈ s.workers 0 ∧ (s.part 0).step.isSome = true ∧ s.partOf (bayOf 0) = some 0 ∧
    (network.setPart 0 { step := some (stepRun .stopping) }).serving = true ∧
    rangeWaits (retrained network 8) 0 0 64 = false ∧ rangeWaits (retrained network 0) 0 0 64 = true := by decide +kernel

theorem witness_Admission :
    ((takePosts (posted 0) 0).part 0).step.isSome = true ∧
    (((takePosts (posted 0) 0).part 0).posts.find? (fun q => (reqOf q.bytes).ticket == 0)).isSome = true ∧
    (List.range 32).find? (fun i => ((takePosts (posted 0) 0).coll i).isNone) = some 0 ∧
    (takePosts (posted 0) 0).getN Obj.trussCtx 1 = 4 ∧ ((posted 0).setN Obj.trussCtx 1 0).getN Obj.trussCtx 1 = 0 ∧
    ((takePosts (posted 63) 0).part 0).posts.find? (fun q => (reqOf q.bytes).ticket == 0) = none ∧
    (takePosts (posted 63) 0).quiet 0 = true ∧ ((posted 63).setCore 0 { run := .running }).quiet 0 = false := by
  decide +kernel

theorem witness_Collectives :
    (reducingIn peer []).coll 31 = some (reducing peer []) ∧ (reducing peer []).peer 1 = some peer ∧
    (peer.whole = [] ∧ peer.got = []) ∧ (peer.next < peer.chunks ∧ peer.credit ≤ peer.next) ∧
    (peer.next < ({ peer with credit := 1 } : Peer).credit ∧ (reducing peer []).nextDest = none ∧
      (reducing { peer with credit := 1 } []).nextDest = some 0 ∧
      (∀ r ∈ (reducing peer []).chunkReads peer 0, layoutWaits (reducingIn peer []) 0 r = false)) ∧
    (∀ r ∈ (reducing peer [0]).foldRanges 0, layoutWaits (reducingIn peer [0]) 0 r = false) ∧
    (contributions (reducingIn peer [0]) (reducing peer [0]) 0).2 = (true, [zeroBytes 16, zeroBytes 16]) ∧
    (writeLayout (contributions (reducingIn peer [0]) (reducing peer [0]) 0).1 0 (layout 16) 0 (zeroBytes 16)).2 = true ∧
    (0 < ({ peer with next := 1 } : Peer).next ∧ 0 ∉ peer.acked ∧ chunkLeft (reducingIn peer []) (reducing peer []) { peer with next := 1 } 0 = true) ∧
    (route network { blankHeader with dstRack := 0, dstMod := 1 }).isSome = true ∧ network.linkUp 0 = true ∧
    ((({ peer with whole := [0], granted := 2 } : Peer).whole ≠ []) ∧ (1 : Nat) ∉ [0] ∧ (1 : Nat) < 2) := by
  decide +kernel

/-- An acknowledgement that stays away for Tc sends the chunk again once, on the other link of its axis (R253). -/
theorem test_resent :
    let t := after (.chunkTimeout 31 1 0) (reducingIn { peer with next := 1, used := [(0, some 1)] } [])
    (t.link 0).out ≠ [] ∧ (t.link 1).out = [] := by decide +kernel

/-! ### Packets -/

/-- A header of a kind for this module and job 7. -/
def heard (k : Byte) : Header := { blankHeader with kind := k, job := 7 }

/-- A READ of this module waits for its reply. -/
def asked : Request := ⟨5, .xfer 0 3, 0, 0, 0, 2, true, 0, 16⟩

theorem witness_RequestsAndReplies :
    (∀ k ∈ [kRead, kWrite, kReadReply, kWriteReply], network.Takes 1 k (heard k) 0) ∧
    (stale network (heard kRead) = false) ∧ network.fenced 0 = false ∧ network.dark = false ∧
    stale ({ network with clock := { network.clock with time := 2_000_000_000_000 } }.setN Obj.clkTimeOk 0 1) (heard kRead) = true ∧
    (network.setN Obj.jobWait 1 1).fenced 0 = true ∧ network.power.resting = false ∧ { network.power with resting := true }.resting = true ∧
    rangeOk network 0 0 16 (fun _ => true) = true ∧ rangeOk network 0 (2 * gib) 16 (fun _ => true) = false ∧
    rangeWaits network 0 0 16 = false ∧ (hitPages network (linkBay 0) 0 (network.spanPages 0 0 16)).isSome = true ∧
    rangeWaits (retrained network 0) 0 0 16 = true ∧
    network.net.requests.find? (·.tag == 0) = none ∧
    ([asked].find? (·.tag == 5) = some asked ∧ genOk network asked { heard kReadReply with tag := 5 } = true ∧ asked.isRead = true) ∧
    genOk network asked { heard kReadReply with tag := 5, gen := 1 } = false := by
  unfold State.Takes; decide +kernel

theorem witness_CollectivePackets :
    (∀ k ∈ [kChunk, kChunkAck, kChunkCredit, kChunkCount], (reducingIn peer []).Takes 1 k { heard k with srcMod := 1, member := 1 } 0) ∧
    (reducingIn peer []).fenced 0 = false ∧ ((reducingIn peer []).setN Obj.jobWait 1 1).fenced 0 = true ∧
    matching network 0 (heard kChunk) = none ∧ finished network 0 (heard kChunk) = false ∧
    matching (reducingIn peer []) 0 (heard kChunk) = some (31, reducing peer []) ∧
    ((reducing { peer with next := 1 } []).peers.find? (fun d => d.rack == 0 && d.module == 1) = some { peer with next := 1 }) ∧
    (0 ∉ peer.acked ∧ 0 < ({ peer with next := 1 } : Peer).next) ∧ (reducing peer []).peer 1 = some peer ∧ peer.told = none ∧
    ({ reduce with op := 3 } : CollReq).op = 3 := by
  unfold State.Takes; decide +kernel

theorem witness_PacketFates :
    (packetArrives 1 kRead (heard kRead) [] = some (.read 1 (heard kRead)) ∧ network.linkUp 1 = true ∧ network.pins.departed = false ∧
      network.pins.inReset = false) ∧
    (network.setN Obj.linkState 2 2).linkUp 1 = false ∧
    validPacket 1 kRead { heard kRead with vc := 6 } = false ∧ validPacket 5 kRead { heard kRead with vc := 3 } = false ∧
    (validPacket 1 kRead (heard kRead) = true ∧ network.ownIndex ≠ some (1 : Byte).toNat) ∧
    (network.jobPart 8 = none ∧ network.ownIndex = some 0) ∧ (network.jobPart 7 = some 0 ∧ (1 : BitVec 12).toNat ≠ network.getN Obj.jobEpoch 1) ∧
    (route network { heard kRead with dstMod := 4 } = some (1, 4, 0) ∧ (1 : Fin 6).val / 2 < 1) ∧
    (network.ownIndex ≠ some (({ heard kRead with dstRack := 5, dstMod := 4 } : Header).dstMod).toNat ∧ (5 : Byte).toNat ≠ network.rack) ∧
    (coordOn 0 0 = coordOn 63 0 → False) ∧ (∀ b < 2, coordOn 0 b = coordOn 48 b) ∧ coordOn 0 2 ≠ coordOn 48 2 := by
  decide +kernel

/-- A transfer between module 1's memory and this module's, as far as its pieces have been asked for and have come. -/
def remoteXfer (src dst : Dword) (asked here : Nat) : Xfer :=
  { xferOn with src, dst, len := 64, next := asked, arrived := here, wnext := asked, warrived := here, data := zeroBytes 64 }
/-- The module with core 0's transfer, and the modules of the rack present. -/
def transferring (x : Xfer) : State := (network.setN Obj.routePopulated 0 3).setCore 0 { run := .running, xfers := [x] }

theorem witness_Transfers_ends :
    (let x := remoteXfer 0x8000_0400_0000_0000 0 64 64
     let s := transferring x
     (s.core 0).xfer 3 = some x ∧ s.partOf (bayOf 0) = some 0 ∧ moverPlace s x.src = some (.module 1 0) ∧
      moverPlace s x.dst = some (.here 0) ∧ (hitTransfer s 0 0 x).isSome = true ∧ x.len ≤ x.arrived ∧ (writeRange s 0 0 x.data).2 = 0x00) ∧
    (let x := remoteXfer 0 0x8000_0400_0000_0000 64 64
     moverPlace (transferring x) x.dst = some (.module 1 0) ∧ (hitTransfer (transferring x) 0 0 x).isSome = true ∧ x.len ≤ x.warrived) ∧
    ({ xferOn with status := 2 }.status ≠ 0x00 ∧ xferOn.next = 0 ∧ xferOn.wnext = 0) ∧
    (let x := { remoteXfer 0x8000_0400_0000_0000 0 64 0 with status := 5 }
     x.status ≠ 0x00 ∧ x.next ≠ 0 ∧ moverPlace (transferring x) x.dst = some (.here 0)) := by
  decide +kernel

/-- A remote COPY of 16 bytes from module 1 to this module's memory. -/
def remoteCopy : State :=
  let s := (network.setN Obj.routePopulated 0 3).setPart 0 { extents := [0, 1] }
  s.setQueue 5 { port := some 0, sqSize := 16, sqTail := 15, cqSize := 16, cmds := [⟨3,
    [3, 0] ++ zeroBytes 14 ++ leBytes 8 0x400_0000_0000 ++ leBytes 8 0 ++ leBytes 4 16 ++ [3, 2, 0, 0] ++ zeroBytes 24, .copying (zeroBytes 16) 0 0 0⟩] }

theorem witness_RemoteRequests_ends :
    (let x := remoteXfer 0 0x8000_0400_0000_0000 0 0
     let s := transferring x
     moverPlace s x.src = some (.here 0) ∧ moverPlace s x.dst = some (.module 1 0) ∧ x.wnext < x.len ∧ x.next = 0 ∧
      rangeWaits s 0 0 64 = false ∧ (hitPages s 0 0 (s.spanPages 0 0 64)).isSome = true ∧ (readRange 2 s 0 0 64).2.1 = 0x00 ∧
      (issueRequest s 0 0 (.xfer 0 3) false s.rack 1 0 64 0 (zeroBytes 64)).isSome = true) ∧
    (((remoteCopy.cmd 5 3).any fun c => c.source.remote remoteCopy && decide (0 < c.at 0x20 4) &&
        decide (rackEnd remoteCopy c.source.rack c.source.addr = some (.module 1 0))) = true ∧
      (issueRequest remoteCopy 0 64 (.copy 5 3) true 0 1 0 16 0 []).isSome = true) ∧
    (serveAccess network 0 { heard kRead with len := 16 } 0 []).isSome = true ∧
    (let s := (retrained network 0).setPart 0 { extents := [0] }
     serveAccess s 0 { heard kRead with len := 16 } 0 [] = none) := by
  decide +kernel

theorem witness_RemoteRequests :
    (let x : Xfer := { xfer with src := 0x8000_0400_0000_0000, dst := 0, started := true }
     let s := (network.setN Obj.routePopulated 0 3).setCore 0 { run := .running, xfers := [x] }
     (s.core 0).xfer 3 = some x ∧ s.partOf (bayOf 0) = some 0 ∧ (x.send = false ∧ x.started = true ∧ x.status = 0 ∧ x.next < x.len) ∧
      moverPlace s x.src = some (.module 1 0) ∧ (issueRequest s 0 (bayOf 0) (.xfer 0 3) true s.rack 1 0 64 0 []).isSome = true) ∧
    ([(⟨heard kRead, 0, 0, 0, [], none⟩ : Serving)][0]? = some ⟨heard kRead, 0, 0, 0, [], none⟩) ∧ [asked].find? (·.tag == 5) = some asked := by
  decide +kernel

/-- A far end of link 4 with room for 17 flits on VC 0, and none on the other VCs. -/
def farEnd : Ident := ⟨1, 3, 0, 4, 1, 16, 9, [17, 0, 0, 0, 0, 0], 0⟩
/-- A packet of 17 flits waits on link 4. -/
def sending (mate : Option Ident) : State :=
  network.setLink 4 { far := some farEnd, mate, out := [(0, [⟨{ heard kWrite with flits := 16 }, [], 0, 0, none⟩])] }

theorem witness_LinkSends :
    State.reset.linkLive 4 = false ∧ ((sending none).linkLive 4 = true ∧ (sending none).linkUp 4 = true ∧
      ((sending none).link 4).eligible 0 = true ∧ (((sending none).link 4).head 0).isSome = true ∧ ((sending none).link 4).nextVc = some 0) ∧
    (network.linkLive 4 = true ∧ ∀ v < 6, (network.link 4).eligible v = false) ∧
    ((network.setN Obj.linkState 5 2).linkLive 4 = true ∧ (network.setN Obj.linkState 5 2).linkUp 4 = false) := by
  decide +kernel

/-- A packet leaves with its credit, and the next one of its VC waits (R271, R272). -/
theorem test_transmit : (after (.linkTransmit 4 0) (sending none)).sent.length = 1 ∧
    look 0 ((after (.linkTransmit 4 0) (sending none)).link 4).sent 0 = 17 := by decide +kernel

/-- 256 flits of a VC that have been freed send their counts at once (R272). -/
theorem test_credit_at_256 : (noteFreed (network.setLink 4 { sinceCredit := [(0, 255)] }) 4 0 1).sent.length = 1 ∧
    (noteFreed (network.setLink 4 { sinceCredit := [(0, 254)] }) 4 0 1).sent.length = 0 := by decide +kernel

theorem witness_ControlFlits :
    ((network.setN Obj.linkState 5 2).linkState 4 = 2 ∧ (network.setN Obj.linkState 5 2).linkLive 4 = true) ∧ (State.reset.linkState 4 ≠ 2) ∧
    (network.linkState 4 = 3 ∧ State.reset.linkState 4 ≠ 3 ∧ network.linkLive 4 = true) ∧ ({ farEnd with reserved := 1 } : Ident).reserved ≠ 0 ∧
    (farEnd.reserved = 0 ∧ validIdent farEnd = true) ∧ ((sending none).link 4).mate = none ∧
    ((sending (some farEnd)).link 4).mate.map (·.serial) = some farEnd.serial ∧
    (((sending (some { farEnd with serial := 8 })).link 4).mate = some { farEnd with serial := 8 } ∧
      ({ farEnd with serial := 8 } : Ident).serial ≠ farEnd.serial ∧ (sending (some { farEnd with serial := 8 })).linkState 4 = 3) := by
  decide +kernel

/-- Link 4 in a state and training at a rate. -/
def linkIn (st rate : Nat) (y : Link) : State := (network.setN Obj.linkState 5 st).setLink 4 { y with training := rate }

theorem witness_LinkStates :
    ((linkIn 1 2 {}).linkState 4 = 1 ∧ ((linkIn 1 2 {}).link 4).training = 2 ∧ ((linkIn 1 1 {}).link 4).training = 1 ∧
      (linkIn 1 2 {}).pins.departed = false) ∧
    bit ((linkIn 1 2 {}).getN Obj.linkRateAllow 5) 0 = true ∧ bit (((linkIn 1 2 {}).setN Obj.linkRateAllow 5 2).getN Obj.linkRateAllow 5) 0 = false ∧
    (network.linkLive 4 = true ∧ 999 < 1000 * 1 ∧ 1000 * 1 ≤ 1000) ∧ ((linkIn 3 0 { uncorr := List.replicate 32 0 }).link 4).uncorr.length = 32 ∧
    ((List.replicate 32 (0 : Dword)).filter fun t => decide (network.uptime < t.toNat + 1_000_000)).length = 32 ∧
    ((linkIn 0 0 { auto := true }).linkState 4 = 0 ∧ (linkIn 4 0 { auto := true }).linkState 4 = 4 ∧
      ((linkIn 0 0 { auto := true }).link 4).auto = true ∧ ((linkIn 0 0 { auto := true }).link 4).retrain = false ∧
      network.pins.inReset = false ∧ network.fw.busy = false) := by
  decide +kernel

/-- 32 uncorrectable codewords in the millisecond leave the link UP, and the next takes it DOWN (R291). -/
theorem test_codewords :
    let bad : Codeword := { symbols := 16, errors := 16, corrected := false, bits := 0 }
    (after (.codeword 4 bad) (linkIn 3 0 { uncorr := List.replicate 31 0 })).linkState 4 = 3 ∧
    (after (.codeword 4 bad) (linkIn 3 0 { uncorr := List.replicate 32 0 })).linkState 4 = 0 := by decide +kernel

/-! ### Hosts and partitions -/

/-- Port 0 with some state, attached, its heartbeat limit and hold time one unit. -/
def attached (t : Dword) (x : Port) : State :=
  let s := { network with clock := { network.clock with time := t, up := t } }
  (((s.setPort 0 x).setN Obj.hostState 1 1).setN Obj.hostHbLimit 1 1).setN Obj.hostHold 1 1

theorem witness_HostLoss :
    (network.portUp 0 = true ∧ network.portUp 1 = false) ∧ network.hears 0 0x108 = true ∧
    ((attached 1_000_000 {}).serving = true ∧ (attached 1_000_000 {}).getN Obj.hostState 1 = 1 ∧
      (attached 1_000_000 {}).getN Obj.hostHbLimit 1 * 1_000_000 ≤ (attached 1_000_000 {}).now - 0) ∧
    ((attached 999_999 {}).now - 0 < (attached 999_999 {}).getN Obj.hostHbLimit 1 * 1_000_000) ∧
    ((attached 0 {}).setN Obj.hostState 1 2).getN Obj.hostState 1 = 2 ∧
    (network.getN Obj.hostState 2 ≠ 2 ∧ ∀ p < 8, network.owner p ≠ some 1) := by
  decide +kernel

theorem witness_HostAttachAndTime :
    network.hears 0 0x108 = true ∧ network.portUp 0 = true ∧ (attached 0 { holding := true }).serving = true ∧
    ((attached 0 { holding := true }).port 0).holding = true ∧
    ((attached 999_999_999 { holding := true }).uptime - 0 < (attached 999_999_999 { holding := true }).getN Obj.hostHold 1 * 1_000_000_000) ∧
    ((attached 1_000_000_000 { holding := true }).getN Obj.hostHold 1 * 1_000_000_000 ≤ (attached 1_000_000_000 { holding := true }).uptime - 0) := by
  decide +kernel

/-- A read of HP_TIME_LO captures the high word (R302). -/
theorem test_time : (after (.hpTimeLo 0) (attached 0x0000_0005_0000_0007 {})).readReg 0 0x114 = 5 := by decide +kernel

/-- The firmware of `network` is stuck, with `k` writes of port 0 waiting. -/
def stuckWith (k : Nat) : State :=
  let s := after (.emuLate 0 true) network
  s.setPort 0 { s.port 0 with emu := List.replicate k (.lgCtrlStop 0) }

/-- A write made while the firmware is stuck waits, and is performed with the queue (R378). -/
theorem test_queued_write :
    let s := after (.registerWrite 0 0x8008 7) (stuckWith 1)
    s.getR 0 0x8008 = 0 ∧ (s.port 0).emu.length = 2 ∧
      (performQueued { s with fw := { s.fw with hung := false } }).getR 0 0x8008 = 7 := by decide +kernel

theorem witness_RegisterWrites :
    ((stuckWith 63).stalled 0 = true ∧ ((stuckWith 63).port 0).emu.length < 64 ∧ (stuckWith 64).stalled 0 = true ∧
      64 ≤ ((stuckWith 64).port 0).emu.length) ∧
    (network.hears 0 0x4000 = true ∧ ((regRow 0x4000).any fun r => r.access == .rws) = true ∧ mailboxHeld network 0 0x4000 = false ∧
      7 ≤ regLimit 0x4000 ∧ regLimit 0x4000 < 8) ∧
    (network.hears 0 0x8020 = true ∧ ((regRow 0x8020).any fun r => r.access == .rws) = true) ∧
    (((regRow 0x104).any fun r => r.access != .rws) = true) ∧ mailboxHeld (network.setR 0 0x404 1) 0 0x600 = true ∧
    (mailboxHeld network 0 0x600 = false ∧ network.hears 0 0xAFC = true ∧ (regRow 0xAFC).isNone = true ∧ 0xAFC < 0xB00) := by
  decide +kernel

/-- The aperture of port 0 shows a partition from 16 bytes below the end of its plain part. -/
def aperture16 (p : Nat) : State := ((network.setR 0 0x4018 p).setR 0 0x4020 (2 * gib - 16))

theorem witness_Aperture :
    network.portUp 0 = true ∧ 16 ≤ (network.port 0).barSize ∧ (aperture16 0).getR 0 0x4018 = 0 ∧ (aperture16 0).owner 0 = some 0 ∧
    (aperture16 0).inService 0 = true ∧ (aperture16 0).getR 0 0x4020 + 16 ≤ (aperture16 0).plain 0 * gib ∧
    rangeWaits (aperture16 0) 0 (2 * gib - 16) 16 = false ∧
    rangeWaits ((retrained (aperture16 0) 15).setPart 0 { extents := [0, 1] }) 0 (2 * gib - 16) 16 = true ∧
    ¬((aperture16 0).getR 0 0x4020 + 17 ≤ (aperture16 0).plain 0 * gib) ∧ ¬((aperture16 8).getR 0 0x4018 < 8) := by
  decide +kernel

/-- Partition 0 in a state, with its generation long in force. -/
def partIn (st : Nat) : State := { network with clock := { network.clock with up := 20_000_000_000 } }.setN Obj.partState 1 st

theorem witness_PartitionCommands :
    ((partIn 0).hears 0 0x4004 = true ∧ (partIn 0).getR 0 0x4000 = 0 ∧ (partIn 0).owner 0 = some 0 ∧ (partIn 0).pstate 0 = 0) ∧
    ((partIn 0).served ≠ 0 ∧ (formCheck (partIn 0) 0).1 ≠ 0) ∧ ((partIn 0).setR 0 0x214 0).served = 0 ∧
    (∀ st ∈ [2, 3, 4], (partIn st).pstate 0 ∈ [2, 3, 4]) ∧
    ((partIn 1).pstate 0 = 1 ∧ (partIn 1).serving = true ∧ (partIn 1).pins.departed = false ∧ (formCheck (partIn 1) 0).1 ≠ 0) ∧
    ((partIn 5).pstate 0 = 5 ∧ genRecent (partIn 5) 0 = false ∧ ((partIn 5).part 0).edgeWait = false) ∧
    (((partIn 5).part 0).resetAt.toNat + 10_000_000 ≤ (partIn 5).uptime) ∧ (asked.part = 0) ∧
    genRecent ((partIn 5).setPart 0 { gens := [((partIn 5).getN Obj.partGen 1, 19_999_999_999)] }) 0 = true ∧
    ((partIn 3).setR 0 0x4000 1).owner 1 ≠ some 0 ∧ (partIn 1).pstate 0 ∉ [2, 3, 4] := by
  decide +kernel

/-- A layout that passes every check: a bay row of passing bays and one plain extent. -/
def placed : State :=
  ((((partIn 1).setPart 0 {}).setN Obj.raiseBayPass 0 0xFF).setN Obj.partWinpages 1 1).setB Obj.partPlan 1 [0, 0]

theorem witness_formation : (formCheck placed 0).1 = 0 ∧ (placement placed 0).isSome = true := by decide +kernel

/-- The registers of port 0 describe queue 4,095. -/
def queueRegs : State :=
  ((((((network.setR 0 0x1000 4095).setR 0 0x1010 16).setR 0 0x1020 65536).setR 0 0x1024 2047).setR 0 0x102C 15).setR 0 0x1030 1).setN
    Obj.hostQmax 1 4096
/-- Queue 5 of port 0 holds 15 entries of 16, and one command in its phase. -/
def queued (bytes : Bytes) (ph : CmdPhase) : State :=
  network.setQueue 5 { port := some 0, sqSize := 16, sqTail := 15, cqSize := 16, cmds := [⟨3, padTo 64 bytes, ph⟩] }

theorem witness_Queues :
    queueRegs.hears 0 0x1034 = true ∧ queueRegs.getR 0 0x1000 = 4095 ∧ createResult queueRegs 0 = 0 ∧
    createResult (queueRegs.setR 0 0x1010 17) 0 ≠ 0 ∧ (queueRegs.queue 4095).port ≠ some 0 ∧ ((queued [] .accepted).queue 5).port = some 0 ∧
    (queued [] .accepted).serving = true ∧ (15 < ((queued [] .accepted).queue 5).sqSize ∧ ((queued [] .accepted).queue 5).sqSize ≤ 16) := by
  decide +kernel

/-- A DELETE of a queue with an accepted command completes it with ABORTED, and the queue is deleted (R307). -/
theorem test_delete : ((after (.delete 0) ((queued [6, 1] .accepted).setR 0 0x1000 5)).queue 5).port = none := by decide +kernel

/-! ### Queue commands -/

/-- Queue 5 dispatches a command of a class and an op. -/
def dispatching (cls op : Byte) : State := ((queued [cls, op] .accepted).setPart 0 { extents := [0, 1] })
/-- The command of queue 5. -/
def command (cls op : Byte) : Cmd := ⟨3, padTo 64 [cls, op], .accepted⟩

theorem witness_Dispatches : ∀ x ∈ [((1 : Nat), (1 : Nat)), (1, 2), (1, 3), (1, 4), (1, 5), (1, 6), (2, 0), (3, 0), (4, 1), (4, 2), (5, 0), (5, 1),
    (6, 1), (6, 2)], (dispatching (BitVec.ofNat 8 x.1) (BitVec.ofNat 8 x.2)).Dispatches 5 x.1 x.2 (command (BitVec.ofNat 8 x.1) (BitVec.ofNat 8 x.2)) 0 := by
  unfold State.Dispatches; decide +kernel

theorem witness_Steps :
    (dispatching 2 0).heldStep 0 5 (command 2 0) = false ∧ ((dispatching 2 0).setN Obj.jobWait 1 1).heldStep 0 5 (command 2 0) = true ∧
    stepWaits (dispatching 2 0) 0 (command 2 0) = false ∧ stepWaits (retrained (dispatching 2 0) 0) 0 (command 2 0) = true ∧
    (checkStep (dispatching 2 0) 0 (command 2 0)).2.isLeft = true ∧ roomFor (dispatching 2 0) 0 [] = true := by
  decide +kernel

/-- The context that a command names, in a state. -/
def named (op : Byte) (c : Ctx) : State := ((dispatching 1 op).setN Obj.partCtxCount 1 1).setCtx 0 c

theorem witness_ContextCommands :
    ((named 1 {}).setN Obj.partCtxCount 1 0).ownsCtx 0 0 = false ∧ (named 1 {}).ownsCtx 0 0 = true ∧
    ((named 1 {}).ctx 0).state = .free ∧ ((named 2 { state := .parked }).ctx 0).state = .parked ∧
    (named 2 { state := .parked }).boundTo 0 0 = none ∧ (named 2 { state := .bound, slot := some 0 }).boundTo 0 0 ≠ none ∧
    (0 < ((named 3 { state := .parked }).setN Obj.partWindows 1 1).getN Obj.partWindows 1) ∧
    (∀ st ∈ [CtxState.bound, .parked, .faulted], ((named 5 { state := st }).ctx 0).state = st) ∧
    (readPreload (named 1 {}) 0 (command 1 1) 16).2.isRight = true ∧
    ((takeFrames ((named 1 {}).setPart 0 { ring := [1, 16385] }) 0 2).map (·.1)) = some [1, 16385] ∧
    paramsWait (named 1 {}) 0 (command 1 1) = false ∧ paramsWait (retrained (named 1 {}) 0) 0 (command 1 1) = true ∧
    (named 4 { state := .bound, slot := some 0 }).spanBusy 0 0 = false := by
  decide +kernel

/-- A station serves a request whose access into the window of slot 0 is due. -/
theorem witness_ContextCommands_busy :
    let s := (bound []).setN Obj.partPool 1 1
    ({ s with net := { serving := [⟨{ heard kRead with addr := BitVec.ofNat 64 gib, len := 16 }, 0, 0, 0, [], some []⟩] } }).spanBusy 0 0 = true ∧
      (s.ctx 9).slot = some 0 := by
  decide +kernel

/-- BIND is refused for a context that is not PARKED (R318). -/
theorem test_bind_conflict : (after (.bind 5) ((named 2 { state := .bound, slot := some 0 }))).sent.length = 1 := by decide +kernel

/-- The command of queue 5 in a phase. -/
def phased (cls op : Byte) (ph : CmdPhase) : Option Cmd := (queued [cls, op] ph).cmd 5 3

theorem witness_OtherCommands :
    (copyStatus (dispatching 3 0) 0 ⟨3, zeroBytes 16 ++ leBytes 8 (2 * gib) ++ zeroBytes 8 ++ leBytes 4 16 ++ zeroBytes 28, .accepted⟩ ≠ 0x00) ∧
    (copyStatus (dispatching 3 0) 0 ⟨3, zeroBytes 32 ++ leBytes 4 16 ++ zeroBytes 28, .accepted⟩ = 0x00) ∧
    ((dispatching 4 1).inPlain 0 0 64 = true ∧ (readRange 9 (dispatching 4 1) 0 0 64).2.1 = 0x00 ∧ validGrammar (zeroBytes 64) = false) ∧
    (phased 6 1 .started).isSome = true ∧ ((phased 6 2 .started).any fun c => decide (c.at 0x10 8 ≤ (queued [6, 2] .started).now)) = true ∧
    (phased 1 5 (.waiting 0 7)).isSome = true ∧ (phased 3 0 (.copying [] 0 0 0)).isSome = true ∧ (phased 5 0 .accepted).isSome = true ∧
    (phased 2 0 .started).isSome = true ∧ (queued [] .accepted).serving = true ∧
    ({ queued [3, 0] .accepted with fw := { network.fw with busy := true } }.serving = false ∧ (5, 3) ∉ network.fw.expired) := by
  decide +kernel

/-- Bytes with the CRC of their kind of image stored at an offset. -/
def sealed (bs : Bytes) (off : Nat) : Bytes := patch bs off (leBytes 4 (crcAt bs off).toNat)

/-- A step image of one program, HALT alone, on core row 0 of bay 0 (R111, R112). -/
def program : Bytes := sealed (leBytes 4 0x5052535A ++ [1, 0] ++ leBytes 2 64 ++ leBytes 4 176 ++ [1, 1] ++ leBytes 2 2 ++ leBytes 4 64 ++
  zeroBytes 44 ++ (leBytes 2 1 ++ leBytes 2 0 ++ leBytes 4 96 ++ leBytes 4 8 ++ leBytes 4 0) ++
  (leBytes 2 2 ++ leBytes 2 0 ++ leBytes 4 112 ++ leBytes 4 64 ++ leBytes 4 0) ++ leBytes 8 (encodeWord .halt (legal .halt)).toNat ++ zeroBytes 8 ++
  ([0] ++ List.replicate 63 0xFF)) 0x14
/-- A grammar of one state that allows no token (R222). -/
def grammar : Bytes := sealed (leBytes 4 0x4D524744 ++ [1, 0, 0, 0] ++ leBytes 4 1 ++ leBytes 4 0 ++ leBytes 4 16 ++ leBytes 4 0 ++ leBytes 4 64 ++
  leBytes 4 64 ++ leBytes 4 80 ++ leBytes 4 80 ++ zeroBytes 24 ++ ([0xFF, 1] ++ zeroBytes 14)) 0x28
/-- Queue 5 dispatches a command; partition 0's memory holds an image at address 0. -/
def withImage (cls op : Byte) (bs : Bytes) : State := { dispatching cls op with mem := writeBytes [] 0 bs }

theorem test_images : validImage program = true ∧ validGrammar grammar = true ∧
    validImage (patch program 100 [1]) = false ∧ validGrammar (patch grammar 64 [0]) = false := by decide +kernel

theorem witness_images :
    (checkStep (withImage 2 0 program) 0 (command 2 0)).2.isRight = true ∧
    (readRange 9 (withImage 4 1 grammar) 0 0 64).2 = (0x00, grammar.take 64) ∧ (withImage 4 1 grammar).inPlain 0 0 80 = true ∧
    (readRange 9 (withImage 4 1 grammar) 0 0 80).2 = (0x00, grammar) := by
  decide +kernel

/-- A STEP is launched: it loads (R153). -/
theorem test_launch : (((after (.step 5) (withImage 2 0 program)).part 0).step.map fun r => r.phase) = some .loading := by decide +kernel
/-- The row's first instruction is the image's HALT (R115). -/
theorem test_load : look 0 ((after (.stepLoad ⟨0, []⟩) (after (.step 5) (withImage 2 0 program))).row 0).imem 0 = 0xC200_0000_0000_0000 := by
  decide +kernel

/-! ### The dictionary -/

/-- The management port's far end: a link-local address. -/
def farAddr : BitVec 128 := BitVec.ofNat 128 (0xFE80 * 2 ^ 112 + 5)
/-- The management port serves; session place 0 is in a phase, with identifier 77; the candidate is on trial. -/
def managed (phase : Nat) : State :=
  let s := { network with
    pins := { network.pins with straps := ⟨0, 1, 0⟩ }
    dict := { sessions := [(0, { phase, id := 77, addr := farAddr, port := 9, root := 0 })] }
    sec := { network.sec with treeBuilt := true } }
  s.setN Obj.fwUpdState 0 4
/-- A datagram to the management port. -/
def datagramTo : Origin := ⟨false, farAddr, 9, (managed 2).firstAddr, BitVec.ofNat 16 ((managed 2).getN Obj.comUdpPort 0), false, true⟩
/-- A version 2 message of an op for an object. -/
def ask (op : Byte) (i sub : Nat) (data : Bytes) (session : Word) : Msg :=
  ⟨2, op, 7, BitVec.ofNat 16 i, BitVec.ofNat 8 sub, if op = 1 then 0 else 1, session, if session = 0 then 0 else 1, 0, BitVec.ofNat 32 data.length, data, false, false⟩

theorem witness_ObjectReads :
    (managed 2).Hears datagramTo ∧ malformed2 (ask 1 0x1000 0 [] 0) = false ∧ malformed2 (ask 1 0x2026 0 [] 0) = false ∧
    ((objRow 0x1000 0).any fun r => r.access != .wo) = true ∧ ((objRow 0x2026 0).any fun r => r.access != .wo) = true ∧
    malformed2 { ask 3 0x1000 0 [] 0 with flags := 0 } = false ∧
    (network.hears 0 0x400 = true ∧ mailboxHeld network 0 0x400 = false) ∧ 8 ≤ 1048 ∧ (network.setR 0 0x408 7).getR 0 0x408 < 8 ∧
    1048 < (network.setR 0 0x408 1049).getR 0 0x408 := by
  unfold State.Hears; decide +kernel

/-- A value that each object takes. -/
def writable : List (Topic × Nat × Nat × Bytes) :=
  [(.write, Obj.sessIdle, 0, leBytes 4 60), (.comUdpPort, Obj.comUdpPort, 0, leBytes 2 6000), (.jobEpoch, Obj.jobEpoch, 8, leBytes 2 0xFFF),
    (.jobId, Obj.jobId, 8, leBytes 2 0xFFFF), (.jobMap, Obj.jobMap, 1, [1, 1, 1, 0, 0, 0]), (.routePlan, Obj.routePlan, 0, []),
    (.memGradeSet, Obj.memGradeSet, 2, leBytes 2 8533), (.pwrCap, Obj.pwrCap, 0, leBytes 4 300),
    (.clkTimeSet, Obj.clkTimeSet, 0, leBytes 8 5_000_000_000), (.secSessRoot, Obj.secSessRoot, 2, []),
    (.secImgRevoked, Obj.secImgRevoked, 0, [8]), (.secMoved, Obj.secMoved, 0, [0]), (.scrClear, Obj.scrClear, 0, [0x1D]),
    (.confirm, Obj.fwConfirm, 0, [1]), (.reject, Obj.fwConfirm, 0, [2]), (.fwRestart, Obj.fwRestart, 0, [1]), (.fwWarm, Obj.fwWarm, 0, [1]),
    (.fwUpdArm, Obj.fwUpdArm, 0, leBytes 4 600), (.fwRecover, Obj.fwRecover, 0, [1]), (.secQuoteReq, Obj.secQuoteReq, 0, zeroBytes 32)]

theorem witness_ObjectWrites : ∀ x ∈ writable, (objRow x.2.1 x.2.2.1).isSome = true ∧ ∀ r ∈ (objRow x.2.1 x.2.2.1).toList,
    (managed 2).Writes datagramTo (ask 2 x.2.1 x.2.2.1 x.2.2.2 77) 0 r ∧ topicOf (ask 2 x.2.1 x.2.2.1 x.2.2.2 77) = x.1 := by
  unfold State.Writes State.HearsIn State.Hears; decide +kernel

/-- Writes that abort: no object, no sub, a read-only object, a value out of form, flash that fails. -/
theorem witness_ObjectWrites_aborts :
    (∀ m ∈ [ask 2 0x0FFF 0 [] 77, ask 2 0x1000 9 [] 77, ask 2 0x1000 0 [0, 0, 0, 0] 77, ask 2 0x7002 0 [1, 0] 77],
      (managed 2).HearsIn datagramTo m 2 0 ∧ topicOf m = .write) ∧ ((managed 2).session 0).phase = 2 ∧
    ((∀ x ∈ objRows, x.index ≠ 0x0FFF) ∧ (∃ x ∈ objRows, x.index = 0x1000) ∧ (objRow 0x1000 9).isNone = true) ∧
    ((objRow 0x1000 0).any fun r => r.access == .ro && writeBarred (managed 2) ⟨0, some 0, true⟩ r 0 == some abReadOnly) = true ∧
    ((objRow 0x7002 0).any fun r => (writeBarred (managed 2) ⟨0, some 0, true⟩ r 0).isNone && (valueFails (managed 2) r 0 [1]).isSome &&
      (valueFails (managed 2) r 0 [1, 0]).isNone && persists r) = true := by
  unfold State.HearsIn State.Hears; decide +kernel

/-- The claim of slot 0: a mailbox's write without a session while every slot is empty, and no write in a session that is not proven (R399). -/
theorem test_claim : State.reset.unclaimed = true ∧ (objRow Obj.secSessRoot 1).isSome = true ∧
    ((objRow Obj.secSessRoot 1).all fun r => (writeBarred State.reset ⟨1, none, false⟩ r 1).isNone &&
      writeBarred State.reset ⟨1, none, true⟩ r 1 == some 0x0203_0000 && writeBarred State.reset ⟨0, none, false⟩ r 1 == some 0x0203_0000) = true := by
  decide +kernel

/-- A partial proof of the session of place 0. -/
def proving : State :=
  { managed 1 with dict := { (managed 1).dict with partials := [⟨asker datagramTo 77, 7, true, 0, 2824, zeroBytes 1024⟩] } }
/-- The last segment of a proof. -/
def proof : Msg := { ask 0x11 0 0 (zeroBytes 1800) 77 with offset := 1024, total := 2824 }

theorem witness_Sessions :
    (network.session 0).phase = 0 ∧ (malformed2 (ask 0x10 0 0 [] 0) = false ∧ (managed 1).Hears datagramTo ∧ ((managed 1).session 1).phase = 0 ∧
      ((List.range 8).countP fun j => ((managed 1).session j).phase == 1 && ((managed 1).session j).chan == 0) < 2 ∧ (managed 1).dict.locked = none) ∧
    (managed 2).HearsIn datagramTo { ask 0x12 0 0 [] 77 with flags := 0 } 0x12 0 ∧
    ((managed 2).serving = true ∧ ((managed 2).session 0).phase ≠ 0 ∧ ((managed 1).session 0).phase = 1 ∧ ((managed 2).session 0).phase ≠ 1) ∧
    ((0 : Nat) < (managed 2).getN Obj.sessIdle 0 * 1_000_000_000) ∧ ((managed 2).setN Obj.sessIdle 0 0).getN Obj.sessIdle 0 = 0 := by
  unfold State.HearsIn State.Hears; decide +kernel

theorem witness_proof :
    proving.HearsIn datagramTo { proof with data := zeroBytes 1000, total := 2024 } 0x11 0 ∧ proof.flags = 1 ∧ proof.offset ≠ 0 ∧
    (proving.dict.partials.find? (fun p => p.holder == asker datagramTo (proving.session 0).id)).isSome = true ∧
    (zeroBytes 1024).length = proof.offset.toNat := by
  unfold State.HearsIn State.Hears; decide +kernel

theorem witness_QuotesAndNetwork :
    (network.pins.inReset = false ∧ network.fw.busy = false ∧ network.fw.hung = false ∧ (stuckWith 1).fw.hung = true ∧
      { network.sec with signing := some (3, [1], none) }.signing = some (3, [1], none)) ∧
    (managed 2).serving = true ∧ (managed 2).mgmtPort = true ∧ datagramTo.service = false ∧ datagramTo.fragment = false ∧
    (managed 2).dict.secondGone = false ∧ ownAddr (managed 2) datagramTo = true ∧ datagramTo.sumOk = true := by
  decide +kernel

/-! ### Updates, raising, firmware -/

/-- A datagram to the service port. -/
def serviceTo : Origin := ⟨true, 5, 9, network.firstAddr, 23058, false, true⟩
/-- An update request. -/
def upd (op : Byte) (total : Nat) (off : Nat) (data : Bytes) : UpdMsg := ⟨op, 0, 7, BitVec.ofNat 32 off, BitVec.ofNat 32 total, 0, data, false⟩
/-- The window is open, and a transfer of 64 bytes has come as far as `n`. -/
def updating (n st : Nat) : State :=
  { network with fw := { network.fw with armed := some (0, 1), update := some ⟨5, 9, 64, zeroBytes n, false, 0, some [1]⟩ } }.setN
    Obj.fwUpdState 0 st

theorem witness_Updates :
    updHeard network serviceTo = true ∧ (network.recovering = false ∧ network.armLeft = 0) ∧ (updating 0 0).armLeft ≠ 0 ∧
    (updForm (upd 1 64 0 []) = true ∧ (updating 0 0).updState = 0 ∧ ((upd 1 64 0 []).flags = 1 ↔ (updating 0 0).recovering = true)) ∧
    (64 ≤ (upd 1 64 0 []).total.toNat ∧ (upd 1 63 0 []).total.toNat < 64 ∧ 8 * 2 ^ 20 < (upd 1 8388609 0 []).total.toNat ∧
      (upd 1 8388608 0 []).total.toNat ≤ 8 * 2 ^ 20) ∧
    ((updating 48 1).receiving serviceTo = true ∧ updForm (upd 2 0 48 (zeroBytes 16)) = true ∧ 48 + 16 ≤ 64) ∧
    (updForm (upd 3 0 0 []) = true ∧ (zeroBytes 64).length = 64 ∧ (zeroBytes 48).length ≠ 64) ∧ updForm (upd 4 0 0 []) = true ∧
    ((updating 64 2).updState = 2 ∧ (updating 64 1).updState = 1) ∧
    ((match buildDelta [] (zeroBytes 64) with | .inl _ => true | .inr _ => false) = true) := by
  decide +kernel

/-- Raising by port 0 with its last step done and a report of an end. -/
def raised (last : Nat) (run : Option (Nat × Nat)) : State :=
  { network with raising := { network.raising with lastStep := last, running := run, steps := [(last, .done)] } }
/-- A report. -/
def report (w : Ended) : Report := ⟨w, true, 0, 0, [], [], [], [], 0⟩

theorem witness_Raising :
    (∀ c ∈ [0x11, 0x12, 0x13, 0x14, 0x15, 0x16, 0x17, 0x18, 0x19, 0x1A], (raised (if c = 0x11 then 1 else c - 1) none).Commands 0 c) ∧
    (raised 1 none).Commands 0 0x01 ∧ (raised 0x1A none).Commands 0 0x21 ∧ (raised 0x1A none).Commands 0 0x22 ∧
    (raised 1 none).fw.service = none ∧ (loadFails (raised 1 none) []).isSome = true ∧
    ((takeOwner (network.setR 0 0x218 1) 0).getR 0 0x218 ≠ 0) ∧ (takeOwner (raised 1 (some (0x11, 0))) 0).rsBusy 0x12 = true ∧
    (takeOwner (raised 1 none) 0).rsAllowed 0x13 = false ∧
    ((raised 1 none).serving = true ∧ (raised 1 (some (0x18, 0))).raising.running = some (0x18, 0) ∧ (raised 1 none).dark = false) ∧
    (linkIn 2 0 { retrain := true }).linkState 4 ≠ 1 ∧ ((linkIn 2 0 { retrain := true }).link 4).retrain = true ∧
    (linkIn 2 0 {}).raising.retrain = none := by
  unfold State.Commands; decide +kernel

theorem witness_Raising_dark :
    (network.setN Obj.pwrStage 0 5).dark = true ∧ (raised 1 (some (0x18, 0))).endsSteps = true ∧
    { raised 1 none with fw := { network.fw with image := .boot } }.endsSteps = true ∧
    (raised 1 none).spareFree 1 3 = true ∧
    { raised 1 none with raising := { network.raising with soft := [(1, 3, 5)] } }.spareFree 1 3 = false ∧
    (takeOwner (raised 0x1A none) 0).rsBusy 0x21 = false := by
  decide +kernel

/-- A full core test that finds a second defect in one place fails the bay; the first is hidden by a soft entry (R356). -/
theorem test_second_defect :
    let t := fullTest (network.setN Obj.raiseBayPass 0 1) { report .step with soft := [(1, 3, 5), (1, 4, 5)] }
    let u := fullTest t { report .step with soft := [(1, 3, 6)] }
    t.raising.soft = [(1, 3, 5), (1, 4, 5)] ∧ u.raising.soft = t.raising.soft ∧ bit (u.getN Obj.raiseBayPass 0) 0 = false := by decide +kernel

/-- A command out of order reads REFUSED_ORDER, 3 (R351). -/
theorem test_out_of_order : (after (.memTrainA 0) (raised 1 none)).readReg 0 0x208 % 256 = 3 := by decide +kernel

/-- The ROM runs, and the update state and what it starts are given. -/
def rom (st : Nat) (starting : Option Nat) : State :=
  { network with fw := { network.fw with image := .rom, starting } }.setN Obj.fwUpdState 0 st

theorem witness_Firmware :
    (network.pins.inReset = false ∧ network.fw.image = .runtime ∧ network.fw.restarts.length < 3) ∧
    network.uptime < (0 : Dword).toNat + 60_000_000_000 ∧ ((rom 0 none).fw.image = .rom ∧ (rom 0 none).fw.starting = none ∧
      (rom 0 none).getN Obj.fwRecover 0 ≠ 1 ∧ (rom 0 none).fw.stormBefore = false ∧ (rom 0 none).getN Obj.fwBootFails 0 ≠ 3 ∧ (rom 0 none).updState = 0) ∧
    ((rom 4 (some 1)).updState = 4 ∧ (rom 4 (some 1)).fw.candidate = 1 ∧ (rom 0 (some 0)).updState ≠ 4) ∧
    ((network.setN Obj.fwRecover 0 1).getN Obj.fwRecover 0 = 1) ∧
    (network.hears 0 0x800C = true ∧ network.getR 0 0x8000 % 4096 = 0 ∧ (network.setR 0 0x8008 0x400_0000).getR 0 0x8008 = 2 ^ (16 + 10)) ∧
    (∀ i < 11, (network.setR 0 0x8008 5).getR 0 0x8008 ≠ 2 ^ (16 + i)) ∧ network.serving = true ∧
    ((∀ m < 4, (network.port m).emu = []) ∧ (∀ m < 4, m ≠ 0 → ((stuckWith 2).port m).emu = []) ∧ (stuckWith 2).fw.busy = false ∧
      ((stuckWith 2).port 0).emu = [.lgCtrlStop 0, .lgCtrlStop 0] ∧
      (let t := performWrite (.lgCtrlStop 0) (network.setPort 0 { network.port 0 with emu := [] })
       t.fw.busy = false ∧ ∀ m < 4, 0 < m → ((performWrite (.lgCtrlStop 0) t).port m).emu = [])) := by
  decide +kernel

/-! ### Pins, power, cooling, the Scribe -/

theorem witness_PinsAndPowerOff :
    (network.pins.inReset = false ∧ network.pins.latch = true) ∧ ((diodesOf 87)[3]? = some 223 ∧ network.discarded 223 = false) ∧
    (diodesOf 63)[1]? = some 127 ∧ ((network.setB Obj.thermMask 0 (List.replicate 28 0xFF)).blind 63 = true) ∧
    (State.reset.pins.inReset = true ∧ { State.reset.pins with wake := true }.wake = true ∧ State.reset.pins.tripHeld = false ∧
      State.reset.power.braceIn = false) ∧
    ({ input := false } : Services) ≠ {} := by
  decide +kernel

/-- A brace asserted in reset is in force at the start (R494). -/
theorem test_brace_before_start :
    (after (.leaveReset ⟨⟨0, 0, 0⟩, {}⟩) (after .braceAssert { State.reset with pins := { wake := true } })).arithTarget = 128 := by decide +kernel

/-- A start without the 50 V input does not come about (R12). -/
theorem test_no_input : (after (.leaveReset ⟨⟨0, 0, 0⟩, { input := false }⟩) { State.reset with pins := { wake := true } }).pins.inReset = true ∧
    (after (.leaveReset ⟨⟨0, 0, 0⟩, {}⟩) { State.reset with pins := { wake := true } }).pins.inReset = false := by decide +kernel

theorem witness_PowerAndBraces :
    (63_000 < 63_001 ∧ 60_000 < 60_001 ∧ { network.power with braceIn := true }.braceIn = true ∧
      { network.power with braceOver := true }.braceOver = true) ∧
    network.pins.inReset = false ∧ (network.stage < 6 ∧ 37_999 < stageEnter 6 ∧ 44_999 < stageEnter 1) ∧
    ((network.setN Obj.pwrStage 0 5).stage = 5 ∧ stageExit 5 ≤ 44_000) ∧ network.serving = true ∧ network.power.braceIn = false ∧
    1000 * network.fuses.watts < 1_250_001 ∧ 1_250_000 ≤ 1000 * network.fuses.watts := by
  decide +kernel

/-- PWR_IN reports the power that a threshold was held against (R435, R448). -/
theorem test_power_in : (after (.overcurrentRelease 1_000_000) { network with power := { network.power with braceOver := true } }).getN Obj.pwrIn 0 =
    0x447A_0000 := by decide +kernel

/-- A brace halves the gate at once, and not below 32 of 256 (R447). -/
theorem test_brace : (after .braceAssert network).getN Obj.clkGateM 0 = 128 ∧
    (after .braceAssert { network with power := { network.power with powerM := 40 } }).getN Obj.clkGateM 0 = 32 := by decide +kernel

theorem witness_CoolingAndTemperature :
    network.pins.inReset = false ∧ (network.power.flow < 1050 ∧ { network.power with flow := 1199 }.flow < 1200 ∧
      1200 ≤ { network.power with flow := 1200 }.flow) ∧
    (5120 < { network.power with inlet := 5121 }.inlet ∧ 5760 < { network.power with inlet := 5761 }.inlet ∧ network.power.inlet < 5504) ∧
    network.serving = true ∧ network.fuses.watts ≠ 0 ∧ (network.degraded 63 = false ∧ (diodesOf 63)[0]? = some 126 ∧ (diodesOf 63)[1]? = some 127 ∧
      network.discarded 126 = false ∧ network.discarded 127 = false) ∧
    hottest ([] ++ (List.replicate 24 (95_001 : Int)).map (· - 95_000)) = some 1 := by
  decide +kernel

/-- Above a limit the thermal limit falls by 64 of 256 (R454). -/
theorem test_thermal : (match exec (.thermalSample [(0, 105_001)] (List.replicate 24 0)) network with
    | .next t => t.power.thermalM | _ => 0) = 192 := by decide +kernel

theorem witness_ScribeAndClocks :
    (0x1000 ≤ 0x2000 ∧ unlimited 0x2000 = true) ∧ (network.tokens 0x1010 ≠ 0 ∧ unlimited 0x1010 = false) ∧
    (network.setTokens 0x1010 0).tokens 0x1010 = 0 ∧ look none network.scribe.tokens 0x1010 = none ∧
    look none (network.setTokens 0x1010 5).scribe.tokens 0x1010 = some 5 ∧ (network.scribe.cycle ≠ network.clock.up ∨ network.scribe.posted = []) ∧
    (let s := network.record 0x2013 [0, 0]
     s.scribe.cycle = s.clock.up ∧ s.scribe.posted = [0x2013] ∧ 0x2012 < 0x2013 ∧ 0x2013 ≤ 0x2014 ∧
      (look [] s.scribe.last 2).map (·.seq) = [BitVec.ofNat 32 (s.getN Obj.scrSeqNext 0) - 1]) ∧ ([] : List Event).length ≤ 1024 ∧ network.pins.inReset = false ∧
    network.clock.setTo = none ∧ onMark { network with clock := { network.clock with time := 999_999_980 } } = true ∧
    onMark { network with clock := { network.clock with time := 999_999_979 } } = false ∧
    (network.setN Obj.clkRef 0 1).getN Obj.clkRef 0 = 1 := by
  decide +kernel

/-- An entry that took the sequence before the next. -/
def lastEvent : Event := ⟨BitVec.ofNat 32 (network.getN Obj.scrSeqNext 0) - 1, 0, 0x21, 0, 0, []⟩
/-- The general area is full, its last entry of the present cycle. -/
def fullScribe : State :=
  { network with scribe := { network.scribe with
      cycle := network.clock.up, posted := [0x21], general := List.replicate 4095 lastEvent ++ [lastEvent] } }

theorem witness_ScribeAndClocks_general :
    (network.tokens 0x20 ≠ 0 ∧ network.scribe.general = []) ∧ 4096 ≤ fullScribe.scribe.general.length ∧ fullScribe.scribe.posted = [0x21] ∧
    fullScribe.scribe.cycle = fullScribe.clock.up ∧ ({ fullScribe with scribe := { fullScribe.scribe with posted := [] } }).scribe.posted = [] ∧
    fullScribe.scribe.general.getLast? = some lastEvent :=
  ⟨by decide +kernel, by show 4096 ≤ (List.replicate 4095 lastEvent ++ [lastEvent]).length; rw [List.length_append, List.length_replicate]; exact Nat.le_refl 4096,
    rfl, rfl, rfl, List.getLast?_concat⟩

/-- A second mark loads the value that CLK_TIME_SET holds (R474). -/
theorem test_second_mark : (after .secondMark { network with clock := { setTo := some 5_000_000_000 } }).clock.time = 5_000_000_000 := by decide +kernel

/-! ### The whole machine -/

theorem witness_StepRunsFront : { State.reset with pending := [Instr.wake] }.pending = [Instr.wake] ∧ State.reset.pending = [] ∧
    State.reset.pins.inReset = true ∧ network.pins.inReset = false := by decide +kernel

theorem witness_ResetState : (objRow 0x1000 0).isSome = true ∧ (regRow 0x200).isSome = true := by decide +kernel

/-- The state after reset keeps the invariants, and a core issues and a queue's head executes in a state that keeps the limits. -/
theorem witness_LimitsKept : State.reset.WithinLimits ∧ State.reset.MemoryCanonical :=
  ⟨⟨fun _ => ⟨Nat.zero_le _, Nat.zero_le _, Nat.zero_le _⟩, fun _ => Nat.zero_le _⟩, rfl⟩

/-! ### Witnesses of the waits, holds and losses that the statements name -/

/-- An image like `program`, its instructions in a burst of their own; a sequencer does not read its CRC. -/
def program4 : Bytes := leBytes 4 0x5052535A ++ [1, 0] ++ leBytes 2 64 ++ leBytes 4 256 ++ [1, 1] ++ leBytes 2 2 ++ leBytes 4 64 ++
  zeroBytes 44 ++ (leBytes 2 1 ++ leBytes 2 0 ++ leBytes 4 192 ++ leBytes 4 8 ++ leBytes 4 0) ++
  (leBytes 2 2 ++ leBytes 2 0 ++ leBytes 4 112 ++ leBytes 4 64 ++ leBytes 4 0) ++ zeroBytes 16 ++ ([0] ++ List.replicate 63 0xFF) ++ zeroBytes 16 ++
  leBytes 8 (encodeWord .halt (legal .halt)).toNat ++ zeroBytes 56
/-- Partition 0 loads that image. -/
def loading4 : State := { stepping {} .loading with mem := writeBytes [] 0 program4 }
/-- The programs of bay 0's rows by that image. -/
def progs4 : List Nat := [0, 0xFF, 0xFF, 0xFF, 0xFF, 0xFF, 0xFF, 0xFF]
/-- Whether bay 0's sequencer loads the sections that it is given. -/
def loaded4 (s : State) : Bool :=
  (loadSections (upTo 8 (fun i s => s.setRow (8 * 0 + i) { s.row (8 * 0 + i) with
    prog := progs4.getD i 0xFF, idle := progs4.getD i 0xFF == 0xFF }) (readParts s 0 0 (headParts program4)).1) 0 0 0 [⟨1, 0, 192, 8, 0⟩]).2
/-- The parts that it reads. -/
def parts4 (s : State) : List (Nat × Nat) :=
  let img := plainBytes s 0 0 (imageSize (plainBytes s 0 0 64))
  headParts img ++ (sectionsFor img false ((List.range 8).map (mapProgram img (8 * (s.bay 0).py.toNat + bayX 0)))).map fun x => (x.off, x.size)

theorem witness_StepCourse_load :
    loading4.partOf 0 = some 0 ∧ ((loading4.part 0).step.map fun r => (r.phase, r.image)) = some (.loading, 0) ∧ (loading4.bay 0).loaded = false ∧
    ((loading4.bay 0).resident == some (0, imageCrc (plainBytes loading4 0 0 64))) = false ∧
    loadWaits loading4 0 0 (parts4 loading4) = false ∧ loadWaits (retrained loading4 0) 0 0 (parts4 loading4) = true := by
  decide +kernel

theorem witness_StepCourse_read :
    (readParts loading4 0 0 (headParts program4)).2 = 0x00 ∧ (readParts { loading4 with bad := [3] } 0 0 (headParts program4)).2 = 0x00 ∧
    (readParts { loading4 with bad := [1] } 0 0 (headParts program4)).2 ≠ 0x00 := by
  decide +kernel

theorem witness_StepCourse_image : (List.range 8).map (mapProgram program4 (8 * (loading4.bay 0).py.toNat + bayX 0)) = progs4 ∧
    sectionsFor program4 false progs4 = [⟨1, 0, 192, 8, 0⟩] := by decide +kernel
theorem witness_StepCourse_bytes : readBytes loading4.mem 0 256 = program4 := by decide +kernel
theorem witness_StepCourse_sections : loaded4 loading4 = true := by decide +kernel
theorem witness_StepCourse_sections_lost : loaded4 { loading4 with bad := [3] } = false := by decide +kernel

/-- An image that is resident loads only the sections that are loaded EVERY step (R115): none of `program`. -/
theorem test_resident : sectionsFor program true [0, 0xFF, 0xFF, 0xFF, 0xFF, 0xFF, 0xFF, 0xFF] = [] ∧
    (sectionsFor program false [0, 0xFF, 0xFF, 0xFF, 0xFF, 0xFF, 0xFF, 0xFF]).length = 1 := by decide +kernel

theorem witness_StepCourse_close :
    closeWaits (sampling []) 0 = false ∧ closeWaits (retrained (sampling []) 0) 0 = true ∧ 0 ∈ coresOf 0 ∧
    (((stepping {} .running).setRow 0 {}).collective 0 = false ∧ ((stepping {} .running).setRow 0 {}).rowsDue 0 = false) := by
  decide +kernel

theorem witness_Streams_coming :
    let y := (filling false).row 7
    y.fills = [fill] ∧ y.fetched ≠ 0 ∧ (127 : Nat) ∈ coresOfRow 7 ∧ y.following = none ∧
    (let z := ((filling false).setRow 7 { y with fills := [fill, fill] }).row 7
     z.following = some (0, fill)) ∧
    (let s := ((filling false).setRow 7 { y with fills := [fill, fill] }).setCore 127 { slot0 := { fill := .full } }
     (((beginFill s 7).core 127).slot 0).fill ≠ .filling) := by
  decide +kernel

/-- The fills that a streamer fetches are those that memory holds then (R160). -/
theorem test_fetched :
    (({ fills := [fill, fill], descLeft := 1 } : Row).fetch 1 ([5, 0, 1, 0] ++ zeroBytes 12)).fills.map (fun f => (f.stream, f.tag)) =
      [(4, 9), (5, 1)] := by
  decide +kernel

theorem witness_MemoryBursts_absolute :
    region (memSize + 0x1_0000_0000_00) = none ∧ region 0x200_0001_8000 = some (.window 0 0x1_8000) ∧ region 0x200_3FFF_A000 = some (.window 8191 0x1_A000) ∧
    region 0x200_0001_C000 = some (.window 0 0x1_C000) ∧ region 0x200_0000_0000 = some (.window 0 0) ∧
    region 0x201_03FF_FFC0 = some (.buffer 63 0xF_FFC0) ∧ memSize ≤ 0x200_0000_0000 ∧ 0x200_0001_8000 % 64 + 64 ≤ 64 ∧
    0x1_9FC0 + 64 ≤ 0x1_A000 ∧ 0x1_BFC0 + 64 ≤ 0x1_C000 ∧ 0x1_FFC0 + 64 ≤ 0x2_0000 ∧
    (region 0x201_0007_FFC0 = some (.buffer 0 0x7_FFC0) ∧ 0x7_FFC0 + 64 ≤ 0x8_0000 ∧ 0x8_0000 < 0xF_FFC0 + 64) ∧
    (¬(State.reset.bay 63).part.toNat < 8 ∧ ¬(State.reset.bay 0).part.toNat < 8) ∧
    (((member.setN Obj.partState 1 5).bay 0).part.toNat = 0 ∧ (member.setN Obj.partState 1 5).getN Obj.partState 1 = 5) := by
  decide +kernel

/-- The stream area of a bay buffer is the streamer's alone, and a bay of a RESETTING partition answers FENCED (R155, R414). -/
theorem test_buffer :
    let reads (a : Nat) (s : State) := (after (.controllerRequest 0 ⟨a, none, 1, 0, none, none⟩ .clean) s).sent
    reads 0x201_0007_FFFF member = [.access 0x201_0007_FFFF 0x00 [0]] ∧ reads 0x201_0008_0000 member = [.access 0x201_0008_0000 0x02 []] ∧
    reads 0x201_0007_FFFF (member.setN Obj.partState 1 5) = [.access 0x201_0007_FFFF 0x06 []] := by decide +kernel

/-- The management core reads a slot by its absolute address, and no address of no range (R45). -/
theorem test_absolute :
    let s := State.reset.setCore 0 { slot0 := { data := [(0, 7)] } }
    (after (.controllerRequest 0 ⟨0x200_0001_8000, none, 1, 0, none, none⟩ .clean) s).sent = [.access 0x200_0001_8000 0x00 [7]] ∧
    (after (.controllerRequest 0 ⟨0x400_0000_0000, none, 1, 0, none, none⟩ .clean) s).sent = [.access 0x400_0000_0000 0x02 []] := by decide +kernel

/-- Grammar 2 of partition 0, one state with one base set or none. -/
def loose (bases : Nat) : Grammar := ⟨0, bases, 1, 0, 8, 0x8040, 0x40, 0x50⟩
/-- An engine loads the mask of context 9's row under that grammar. -/
def masking (bases : Nat) : State :=
  let s := sampling [row 0 .loading]
  (s.setPart 0 { s.part 0 with grammars := [(2, some (loose bases))] }).setCtx 9 { s.ctx 9 with params := { vocab := 8, grammar := 2 } }

theorem witness_SamplerRows_masks :
    (match (masking 1).maskOf 9 with | .by g => decide (g = loose 1) | _ => false) = true ∧ ((masking 1).token 0 9).isSome = true ∧
    (((masking 1).token 0 9).map fun t => (loose 1).run (masking 1) 0 ((loose 1).state ((masking 1).ctx 9).gstate) (t.drafts.take 0)) = some (some 0) ∧
    (maskReads (masking 1) 0 (row 0 .loading)).2 = some (0, 2, 0) ∧ (maskReads (masking 0) 0 (row 0 .loading)) = ([1], none) ∧
    (maskReads (masking 1) 0 (row 0 .loading)).1.head? = some 1 ∧ unreadable (masking 1) 1 = false ∧ unreadable { masking 1 with bad := [1] } 1 = true ∧
    commitWaits (sampling []) 0 ⟨0, 9, [5], [], 0, 0xFF, [], false, 0, 0, 0, 0⟩ = false ∧
    commitWaits (retrained (sampling []) 0) 0 ⟨0, 9, [5], [], 0, 0xFF, [], false, 0, 0, 0, 0⟩ = true := by
  decide +kernel

/-- A mask that has been read is ready, and its base set is the most recently used of the unit's cache (R225). -/
theorem test_mask : let s := loadMask (masking 1) 0 (row 0 .loading) .clean
    (s.su 0).engines.map (·.mask) = [.ok] ∧ (s.su 0).masks = [(0, 2, 0)] := by decide +kernel

/-- Context 9's row is spilled, and its descriptor waits. -/
def spilled (e : List Engine) : State := (served e).setCtx 9 { (served e).ctx 9 with spill := some (row 4 .ok) }

theorem witness_SamplerRows_held :
    (rowsOfCtx (spilled []) 0 9).find? (fun e => !e.whole 8) = some (row 4 .ok) ∧ (freeEngine (spilled []) 0).isSome = true ∧
    freeEngine (spilled (List.replicate 4 { row 4 .loading with ctx := 8 })) 0 = none ∧
    (freeEngine (served (List.replicate 4 (row 4 .ok))) 0).isSome = true ∧
    (let x := ((spilled (List.replicate 4 { row 4 .loading with ctx := 8 })).su 0).shared
     x.queued.foldl (fun l p => byShare ((served []).setSu 0 x) x p l) [] = [0] ∧ x.descs.filter (·.part == 0) = [slice]) ∧
    ((rowsOfCtx (served [row 4 .loading]) 0 9).find? (fun e => !e.whole 8) = some (row 4 .loading) ∧ ((served []).ctx 9).spill = none) ∧
    ((List.replicate 4 { row 4 .loading with ctx := 8 }).reverse.find? fun e => e.mask != .loading) = none ∧ slice.ctx ∈ [9] := by
  decide +kernel

theorem witness_Collectives_grants :
    ({ peer with whole := [0] } : Peer).whole ≠ [] ∧
    (reduce.op = 1 ∧ reduce.depth + prefixOf [] reduce.shardChunks 0 = peer.granted) ∧
    reduce.depth + prefixOf [0] reduce.shardChunks 0 ≠ peer.granted := by
  decide +kernel

theorem witness_CollectivePackets_held :
    (let s := network.setPart 0 { network.part 0 with seqLast := [(0, some 0)] }
     matching s 0 (heard kChunk) = none ∧ finished s 0 (heard kChunk) = true) ∧
    packetWaits (retrained (reducingIn peer []) 0) 0 { heard kChunk with srcMod := 1, member := 1, len := 16 } = true ∧
    packetWaits (reducingIn peer []) 0 { heard kChunk with srcMod := 1, member := 1, len := 16 } = false ∧
    (0 ∈ ({ peer with whole := [0] } : Peer).whole ∧ look [] peer.dup 0 = [] ∧ (reducing peer []).chunkLen peer 0 = some 16) ∧
    (({ reduce with op := 3 } : CollReq).keyed = true ∧ peer.acked = [] ∧ reduce.keyed = false) ∧
    (peer.credit = 0 ∧ peer.told = none ∧ ({ peer with credit := 1 } : Peer).credit ≠ 0) := by
  decide +kernel

/-- A link that was lost in the middle of a packet, and a count that the next corrected codeword is due to have. -/
def framed : State := linkIn 3 0 { cwNext := some 5, frame := some ⟨0, 4, 2, false⟩ }

theorem witness_LinkStates_codewords :
    (let s := (network.setN Obj.pwrStage 0 5).setN Obj.linkState 5 1
     { s with raising := { s.raising with running := some (0x17, 0) } }.trainingWaits 4 = true) ∧ (linkIn 1 2 {}).trainingWaits 4 = false ∧
    (framed.link 4).cwNext = some 5 ∧ ((framed.link 4).frame.map (·.lost)) = some false ∧ framed.linkLive 4 = true := by
  decide +kernel

/-- Three codewords that are missing from the count are uncorrectable ones; with more than 32 the link goes DOWN (R262, R263, R291). -/
theorem test_gap :
    let w (n : BitVec 10) : Codeword := { symbols := 0, errors := 0, corrected := true, bits := n ++ (0 : BitVec 5130) }
    ((after (.codeword 4 (w 8)) framed).getN Obj.linkCwUncorr 5 = 3) ∧ (after (.codeword 4 (w 8)) framed).linkState 4 = 3 ∧
    (after (.codeword 4 (w 38)) framed).linkState 4 = 0 := by decide +kernel

theorem witness_HostAttachAndTime_setup :
    ({} : PcieSetup).bar4 = none ∧ ({} : PcieSetup).msix = [] ∧ 64 * gib = 2 ^ 6 * gib ∧ (∀ i ≤ 6, 3 * gib ≠ 2 ^ i * gib) ∧
    bit (field (msixBytes (network.port 0) (16 * 2047) 16) 12 4) 0 = true ∧
    bit (field (msixBytes (unmaskAll (network.port 0)) (16 * 2047) 16) 12 4) 0 = false ∧ 0x7FF0 + (zeroBytes 16).length ≤ 0x8000 := by
  decide +kernel

/-- A message of a masked vector is pending, and goes once the host has unmasked it (R298). -/
theorem test_masked : let s := sendMsix network 0 5
    s.sent = [] ∧ byteAt (s.port 0).pba 0 = 0x20 ∧ (setUp s 0 {}).sent = [.msix 0 5 0 0] ∧ byteAt ((setUp s 0 {}).port 0).pba 0 = 0 := by decide +kernel

theorem witness_Aperture_held :
    rangeWaits ((retrained (aperture16 0) 15).setPart 0 { extents := [0, 1] }) 0 (2 * gib - 16) 16 = true ∧
    ((retrained (aperture16 0) 15).setPart 0 { extents := [0, 1] }).inService 0 = true := by
  decide +kernel

theorem witness_PartitionCommands_release :
    (partIn 3).accessed 0 = false ∧ (stopReleased (partIn 3) 0).accessed 0 = false ∧
    (let s := { partIn 3 with net := { (partIn 3).net with serving := [⟨heard kRead, 0, 0, 0, [], some []⟩] } }
     ((stopReleased s 0).setPart 0 { (stopReleased s 0).part 0 with releasing := true }).accessed 0 = true) ∧
    ((partIn 3).part 0).releasing = false ∧ (((partIn 3).setPart 0 { releasing := true }).part 0).releasing = true := by
  decide +kernel

/-- A released partition to which no access is in progress is ABSENT at once (R425). -/
theorem test_release : (release (partIn 3) 0).pstate 0 = 0 := by decide +kernel

/-- The command of queue 5 is a STEP that names the slot of context 0, which the partition's list holds. -/
def naming : State := (named 0 { state := .bound, slot := some 0 })

theorem witness_Steps_named :
    let c : Cmd := ⟨3, padTo 64 ([2, 0] ++ zeroBytes 38 ++ [1, 0]), .accepted⟩
    c.at 0x28 2 = 1 ∧ resolve naming 0 (c.at 0x20 8) = some (.mem 0) ∧ unreadable naming 0 = false ∧
    naming.boundTo 0 (leNat (plainBytes naming 0 (c.at 0x20 8) 2)) = some 0 ∧ (naming.ctx 0).state ≠ .closing ∧
    (match (checkStep { withImage 2 0 program with bad := [0] } 0 c).2 with | .inl st => decide (st = 0x04) | _ => false) = true := by
  decide +kernel

theorem witness_Steps_room :
    (checkStep (withImage 2 0 program) 0 (command 2 0)).2.isRight = true ∧
    (match (checkStep (withImage 2 0 program) 0 (command 2 0)) with
      | (t, .inr plan) => roomFor t 0 (streamsOf ((sectionBytes plan.img 5).getD []))
      | _ => false) = true := by
  decide +kernel

/-- A request into the window of slot 0 is due, and context 9 was parked. -/
theorem witness_ContextCommands_bind :
    let s := ((bound []).setN Obj.partPool 1 1).setCtx 9 { (bound []).ctx 9 with state := .parked, slot := none }
    let d := { s with net := { serving := [⟨{ heard kRead with addr := BitVec.ofNat 64 gib, len := 16 }, 0, 0, 0, [], some []⟩] } }
    d.boundTo 0 0 = none ∧ d.spanBusy 0 0 = true ∧ s.spanBusy 0 0 = false := by
  decide +kernel

/-- A step in stage 5 waits, and one that waited is to begin. -/
theorem witness_Raising_waits :
    (let s := beginStep (network.setN Obj.pwrStage 0 5) 0 0x13
     s.raising.running = some (0x13, 0) ∧ s.raising.waits = true ∧ (s.setN Obj.pwrStage 0 0).dark = false) ∧
    ((raised 0x17 (some (0x17, 0))).linkState 0 = 3 ∧ (∀ l < 6, network.linkState l = 3) ∧
      ¬((network.setN Obj.linkState 1 1).linkState 0 = 2 ∨ (network.setN Obj.linkState 1 1).linkState 0 = 3) ∧
      (network.setN Obj.linkState 1 1).linkState 0 = 1) ∧
    network.raising.held = [] ∧ { network.raising with held := [.read 0 0 0 4] }.held = [Held.read 0 0 0 4] ∧
    (loadFails network (network.fw.coming)).isSome = true ∧ network.fw.service = none := by
  decide +kernel

/-- Links that wait in stage 5 are not trained, and a link that departed in IDENT keeps LINK_TRAIN from its end (R362, R442). -/
theorem test_link_train :
    (beginStep ((network.setN Obj.pwrStage 0 5).setN Obj.linkState 1 0) 0 0x17).linkState 0 = 0 ∧ (beginStep (network.setN Obj.linkState 1 0) 0 0x17).linkState 0 = 1 ∧
    (finishStep ((raised 0x17 (some (0x17, 0))).setN Obj.linkState 1 5) 0x17 0 (report .step)).raising.running = some (0x17, 0) := by decide +kernel

/-- An aperture read that a retrain held is made when the retrain ends (R366). -/
theorem test_replay :
    let s := { retrained network 0 with raising := { (retrained network 0).raising with held := [.read 0 0 0 4] } }
    (closeRetrainCmd s 0 0x21 none).raising.held = [] ∧ (closeRetrainCmd s 0 0x21 none).sent.length = 1 := by decide +kernel

theorem witness_Firmware_interrupted :
    (raised 1 (some (0x01, 0))).raising.running = some (0x01, 0) ∧ (raised 1 (some (0x01, 0))).raising.retrain = none ∧
    ({ network.fw with busy := true, held := some network.fw.runs }.held = some network.fw.runs ∧
      { network.fw with busy := true, held := none }.held ≠ some network.fw.runs) ∧
    { network.fw with busy := true }.busy = true ∧ network.fw.image = .runtime ∧ { network.fw with image := .boot }.image ≠ .runtime := by
  decide +kernel

/-- A LOAD_FW that a restart of the boot image interrupted ends FAILED with RESTART (R368). -/
theorem test_restart_in_boot :
    let s := { raised 1 (some (0x01, 0)) with fw := { network.fw with image := .boot } }
    (endInterrupted s).raising.running = none ∧ (endInterrupted s).outcome 0x01 = .failed 0x0A := by decide +kernel

theorem witness_PinsAndPowerOff_wake :
    servicesPresent {} = true ∧ servicesPresent { wakeOff := 1 } = false ∧ servicesPresent { input := false } = false ∧
    ({ wakeOff := 10 } : Services).wakeOff ≠ 0 ∧ ({ State.reset.pins with tripHeld := true }).tripHeld = true := by
  decide +kernel

/-- A trip that is held is cleared by WAKE_N deasserted for 10 ms and asserted again, and by nothing less (R485). -/
theorem test_trip_cleared :
    let s := { State.reset with pins := { wake := true, tripHeld := true } }
    let off (n : Nat) := after (.leaveReset ⟨⟨0, 0, 0⟩, { wakeOff := n }⟩) s
    (after .wake (off 9)).pins.tripHeld = true ∧ (after .wake (off 10)).pins.tripHeld = false ∧ (after .wake s).pins.tripHeld = true := by decide +kernel

theorem witness_Cooling_flow :
    isMean 1100 ((1100 : Nat) :: network.power.flows) = true ∧ isMean 1101 [1100] = false ∧ isMean 1100 [1100, 1101] = true ∧
    ((0x8000 : BitVec 16).msb = true ∧ (1100 : BitVec 16).msb = false) := by
  decide +kernel

/-- Two events of one CTRL cycle take sequences in the order of their codes (R460). -/
theorem test_ascending :
    let s := (network.keepEvent [] 0x2013 [0, 0]).keepEvent [0x2013] 0x2012 [0, 0, 0]
    (look [] s.scribe.last 2).map (·.code) = [0x2012, 0x2013] ∧ (look [] s.scribe.last 2).map (·.seq) = [0, 1] := by decide +kernel

/-- A rate that is lowered caps a bucket, and one that is raised adds no token (R464). -/
theorem test_rate_change :
    let s := network.setTokens 0x1010 5
    (rateChanged (s.setN Obj.scrRate 0 3) (s.getN Obj.scrRate 0) []).tokens 0x1010 = 3 ∧
    (rateChanged (s.setN Obj.scrRate 0 60) (s.getN Obj.scrRate 0) []).tokens 0x1010 = 5 := by decide +kernel

/-- Codes that the spec does not list are distinct, and none of those it lists (R465). -/
theorem test_listed : (listed.map (·.1)).Nodup ∧ freeCode [5, 6] 100 5 = 7 ∧ freeCode [] 100 0x2001 = 0x2002 := by decide +kernel

theorem witness_StepRunsFront_traced :
    network.traced = false ∧ ((network.setPort 0 { network.port 0 with logging := true }).setR 0 0x8020 1).traced = true ∧
    ((1 : BitVec 16) ≠ 0x8010 ∧ (1 : BitVec 16) ≠ 0x8018) ∧ (network.port 0).logging = false := by
  decide +kernel

/-! ### Witnesses of the latest clauses -/

/-- Slot 0 holds a root, and its session empties it (R399). -/
def claimed : State := (managed 2).setB Obj.secSessRoot 1 [1]
theorem witness_ObjectWrites_emptied :
    ∀ r ∈ (objRow Obj.secSessRoot 1).toList, claimed.Writes datagramTo (ask 2 Obj.secSessRoot 1 [] 77) 0 r ∧
      topicOf (ask 2 Obj.secSessRoot 1 [] 77) = .secSessRoot ∧ claimed.getB Obj.secSessRoot 1 ≠ [] ∧
      (ask 2 Obj.secSessRoot 1 [] 77).sub.toNat = 1 := by
  unfold State.Writes State.HearsIn State.Hears; decide +kernel

/-- A descriptor held before, of a sequence whose row is loaded or not; a full unit whose last engine can be spilled, or is whole, or loads. -/
theorem witness_SamplerRows_loaded :
    ((served [row 4 .ok]).rowLoaded 0 9 = true ∧ 9 ∉ [8] ∧ (serveSlices (served [row 4 .ok]) 0 [slice] []).isSome = true) ∧
    ((served [row 8 .ok]).rowLoaded 0 9 = false ∧ [8] ≠ ([] : List Nat)) ∧
    (∀ e ∈ [row 4 .ok, row 8 .ok, row 4 .loading], 4 ≤ ((served (List.replicate 4 e)).su 0).engines.length ∧
      ((served (List.replicate 4 e)).su 0).engines.getLast? = some e) ∧
    ((served []).ctx 9).spill.isNone = true ∧ ((spilled []).ctx 9).spill.isNone = false := by
  decide +kernel

/-- While the unit holds a descriptor, one that would only begin an engine waits, and one of a loaded row is served (R207, R227). -/
theorem test_held_descriptor :
    serveSlices (served []) 0 [slice] [8] = none ∧ (serveSlices (served [row 4 .ok]) 0 [slice] [8]).isSome = true ∧
    (serveSlices (served []) 0 [slice] []).isSome = true := by decide +kernel

/-- A commit that reaches a grammar state, in memory that can be read and that cannot. -/
theorem witness_RowsComplete_commit :
    ((masking 1).reached 0 9 [] = some (loose 1, 0) ∧ (loose 1).entryBursts (masking 1) 0 0 = [1] ∧ unreadable (masking 1) 1 = false ∧
      unreadable { masking 1 with bad := [1] } 1 = true) ∧
    firstWhole ((retrained (sampling [row 8 .ok]) 0).su 0) 9 8 = some (row 8 .ok) ∧
    commitWaits (retrained (sampling [row 8 .ok]) 0) 0 ⟨0, 9, [5], [], 0, 0xFF, [], false, 0, 0, 0, 0⟩ = true := by
  decide +kernel

/-- 2^0 is 1, and 2^(1/2) is 1.41421356…, in units of 2^−64 (R214). -/
theorem test_twoPow : twoPow 0 = 2 ^ 64 ∧ twoPow (2 ^ 148) = 26087635650665564424 := by decide +kernel

theorem witness_writeWaits :
    writeWaits network 0 0 16 = false ∧ writeWaits (retrained network 0) 0 0 16 = true ∧
    writeWaits (aperture16 0) 0 (2 * gib - 16) 16 = false ∧
    mappingWaits (bound [16390]) 0 9 2 = false ∧ (List.range 192).any (fun u => mappingWaits (retrained (bound [16390]) u) 0 9 2) = true ∧
    reconcileWaits (partIn 5) 0 = false ∧
    (let s := (retrained (bound []) 8).setN Obj.partState 1 5
     reconcileWaits (s.setCtx 9 { s.ctx 9 with record := some (16384, 16384) }) 0 = true ∧ s.pstate 0 = 5) := by
  decide +kernel

/-- A reply waits for its access while the memory's clocks are stopped. -/
theorem witness_RemoteRequests_resting :
    let s := { network with
      power := { network.power with resting := true }, net := { network.net with serving := [⟨heard kRead, 0, 0, 0, [], some []⟩] } }
    s.power.resting = true ∧ (s.net.serving)[0]? = some ⟨heard kRead, 0, 0, 0, [], some []⟩ := by decide +kernel

theorem witness_ControlFlits_invalid : ({ farEnd with role := 3 } : Ident).reserved = 0 ∧ validIdent { farEnd with role := 3 } = false := by decide

/-- A deadline that is reached and one that is not, a page without a frame, and a command of a firmware that acts. -/
theorem witness_OtherCommands_met :
    (phased 6 2 .started).any (fun c => c.cls == 6 && c.op == 2 && decide (c.at 0x10 8 ≤ (queued [6, 2] .started).now)) = true ∧
    (let bs := [6, 2] ++ zeroBytes 14 ++ List.replicate 8 0xFF
     ((queued bs .started).cmd 5 3).any (fun c => decide ((queued bs .started).now < c.at 0x10 8)) = true) ∧
    (((bound []).ctx 9).frame 2 = none ∧ (mapFails (bound []) 9 2).2 = false ∧ allocate (mapFails (bound []) 9 2).1 0 9 2 = none) := by
  decide +kernel

theorem witness_QuotesAndNetwork_signed :
    network.sec.signed = false ∧ { network.sec with signed := true }.signed = true ∧
    (datagramTo.service = false ∧ { datagramTo with fragment := true }.fragment = true) := by decide +kernel

/-- A port that may own raising and one that may not, each with a command that is turned away. -/
theorem witness_Raising_owner :
    let s := (raised 1 (some (0x11, 0))).setR 0 0x218 1
    (s.getR 0 0x218 ≠ 0xFF ∧ s.raising.orphan = false ∧ s.getR 0 0x218 ≠ 0 ∧ s.hears 0 0x200 = true ∧ s.pins.departed = false) ∧
    (s.hears 1 0x200 = false ∨ s.getR 0 0x218 = 1) ∧ (raised 1 (some (0x11, 0))).rsBusy 0x12 = true ∧
    ((raised 1 none).rsBusy 0x13 = false ∧ (raised 1 none).rsAllowed 0x13 = false) := by
  decide +kernel

/-- A command that is turned away leaves RS_OWNER (R351). -/
theorem test_turned_away : (after (.memTrainA 0) ((raised 1 none).setR 0 0x218 0xFF)).getR 0 0x218 = 0xFF := by decide +kernel

theorem witness_PowerAndBraces_held :
    ({ network.power with braceHalf := true }.braceHalf = true ∧ (network.setN Obj.pwrStage 0 3).stage = 3 ∧ network.stage < 3 ∧
      network.power.braceHalf = false ∧ network.power.braceOver = false) ∧
    1000 * network.getN Obj.pwrLimit 0 * network.getN Obj.clkGateM 0 < 100_000_000 * network.unheldM := by
  decide +kernel

/-- A brace does not raise the limit that its release meets (R447). -/
theorem test_held_power : (after (.powerControl ⟨1000, 54_000⟩) { network with power := { network.power with braceHalf := true, powerM := 128 } }).power.powerM =
    128 := by decide +kernel

/-- A Scribe with an entry that is not in flash, and one without. -/
theorem witness_ScribeAndClocks_flush :
    (let s := network.record 0x2013 [0, 0]
     s.pins.inReset = false ∧ s.scribe.last ≠ s.scribe.flashLast) ∧
    (flushScribe network).scribe.first = (flushScribe network).scribe.flashFirst ∧ (flushScribe network).scribe.last = (flushScribe network).scribe.flashLast ∧
    State.reset.pins.inReset = true := by
  decide +kernel

/-- A departure before and after 3 ms, and a FENCE reset that has waited for 10 ms with a request left. -/
theorem witness_StepRunsFront_ends :
    ({ network.pins with departAt := some 0 }.departAt = some 0 ∧ network.uptime < 3_000_000 ∧ 3_000_000 ≤ (partIn 5).uptime) ∧
    (let s := (partIn 5).setPart 0 { edgeWait := true }
     s.serving = true ∧ s.pstate 0 = 5 ∧ (s.part 0).edgeWait = true ∧ (s.part 0).resetAt.toNat + 10_000_000 ≤ s.uptime) ∧
    State.reset.serving = false := by
  decide +kernel

/-- RESET_N within 3 ms of a departure loses the flush, and later does not (R494). -/
theorem test_departure :
    let s := after .latchOpen network
    let t := { s with clock := { s.clock with up := s.clock.up + 3_000_000 } }
    (after .resetN s).scribe.flashLast = network.scribe.flashLast ∧ (after .resetN (endDeparture t)).scribe.flashLast = t.scribe.last := by
  decide +kernel

/-- A request that a FENCE reset leaves is nobody's from 10 ms on, and its tag is quarantined (R415). -/
theorem test_edge_limit :
    let s := { (partIn 5).setPart 0 { edgeWait := true } with net := { network.net with requests := [asked] } }
    s.edgeLate 0 = true ∧ (tagRequests s 0).net.requests = [] ∧ (tagRequests s 0).net.quarantine = [5] := by decide +kernel

theorem test_idle : (match step network with | .next t => t.clock.time | _ => 0) = 10 := by decide +kernel

end Sys2Proof.Tests
end

section
/-! SUPPORT. Cleared tiles, windows and the kerf flag (R61, R67): what a join does to E and to K, and what an operation at the head of the
tensor queue does to an entry. -/

namespace Sys2Proof.Machine

/-! ## Infinity and NaN -/

@[simp] theorem specialEntry_e (v : Num) (k : Bool) : (specialEntry v k).e = 0x3FF := by cases v <;> rfl

@[simp] theorem specialEntry_k (v : Num) (k : Bool) : (specialEntry v k).k = k := by cases v <;> rfl

/-- 0x3FF, which holds an infinity or NaN, is the highest window exponent. -/
theorem windowExp_le_special (e : BitVec 10) : e.toNat ≤ (0x3FF : BitVec 10).toNat := by
  have := e.isLt
  show e.toNat ≤ 0x3FF
  omega

/-- The window exponent of an entry that holds a finite value. -/
theorem windowExp_le_of_finite {e : BitVec 10} (h : e ≠ 0x3FF) : e.toNat ≤ 0x3FE := by
  have hlt := e.isLt
  have hne : e.toNat ≠ 0x3FF := fun h' => h (BitVec.eq_of_toNat_eq h')
  omega

/-- What a finite join ends with: the sum in the higher of the two windows, an infinity, or the sum in the window 16 above (R63 to R65). -/
theorem joinFinite_cases (x : Entry) (v ev : Int) (place : Nat) (k : Bool) :
    (∃ s lost, joinFinite x v ev place k = { s, e := BitVec.ofNat 10 (max x.e.toNat place), k := x.k || k || lost }) ∨
    (∃ neg, joinFinite x v ev place k = specialEntry (.inf neg) true) ∨
    (∃ s, max x.e.toNat place + 16 ≤ 0x3FE ∧
      joinFinite x v ev place k = { s, e := BitVec.ofNat 10 (max x.e.toNat place + 16), k := true }) := by
  unfold joinFinite
  extract_lets e xs lostX sh vs lostV sum flag
  by_cases hfit : fits112 sum = true
  · exact .inl ⟨BitVec.ofInt 112 sum, lostX || lostV, by rw [if_pos hfit, ← Bool.or_assoc]⟩
  · by_cases htop : e + 16 > 0x3FE
    · exact .inr (.inl ⟨decide (sum < 0), by rw [if_neg hfit, if_pos htop]⟩)
    · exact .inr (.inr ⟨BitVec.ofInt 112 (shiftRne sum 16), not_lt.1 htop, by rw [if_neg hfit, if_neg htop]⟩)

/-! ## A join keeps K -/

theorem joinFinite_keeps_k {x : Entry} (v ev : Int) (place : Nat) (k : Bool) (h : x.k = true) :
    (joinFinite x v ev place k).k = true := by
  rcases joinFinite_cases x v ev place k with ⟨s, lost, heq⟩ | ⟨neg, heq⟩ | ⟨s, -, heq⟩
  · simp [heq, h]
  · simp [heq]
  · simp [heq]

theorem joinSpecial_keeps_k {x : Entry} (v : Num) (k : Bool) (h : x.k = true) : (joinSpecial x v k).k = true := by
  unfold joinSpecial
  split <;> simp [h]

theorem joinProduct_keeps_k {x : Entry} (p : Num) (h : x.k = true) : (joinProduct x p).k = true := by
  unfold joinProduct
  split
  · split
    · exact h
    · exact joinFinite_keeps_k _ _ _ _ h
  · exact joinSpecial_keeps_k _ _ h

theorem joinXp128_keeps_k {x : Entry} (n : Nat) (h : x.k = true) : (joinXp128 x n).k = true := by
  unfold joinXp128
  dsimp only
  split
  · exact joinSpecial_keeps_k _ _ h
  · split
    · exact joinSpecial_keeps_k _ _ h
    · split
      · simp [h]
      · exact joinFinite_keeps_k _ _ _ _ h

/-! ## A join does not lower E -/

/-- A finite join sets E to the maximum of both exponents, to 16 above it, or to 0x3FF. -/
theorem joinFinite_e_ge {x : Entry} (v ev : Int) {place : Nat} (k : Bool) (hx : x.e ≠ 0x3FF) (hp : place ≤ 0x3FE) :
    x.e.toNat ≤ (joinFinite x v ev place k).e.toNat := by
  have he := windowExp_le_of_finite hx
  rcases joinFinite_cases x v ev place k with ⟨s, lost, heq⟩ | ⟨neg, heq⟩ | ⟨s, htop, heq⟩
  · rw [heq, BitVec.toNat_ofNat]; omega
  · rw [heq, specialEntry_e]; exact windowExp_le_special _
  · rw [heq, BitVec.toNat_ofNat]; omega

theorem joinSpecial_e_ge (x : Entry) (v : Num) (k : Bool) : x.e.toNat ≤ (joinSpecial x v k).e.toNat := by
  unfold joinSpecial
  split
  · exact le_rfl
  · rw [specialEntry_e]; exact windowExp_le_special _

theorem joinProduct_e_ge (x : Entry) (p : Num)
    (hp : ∀ m e, p = .fin m e → m ≠ 0 → floorLog m.natAbs e + 416 ≤ 0x3FE) :
    x.e.toNat ≤ (joinProduct x p).e.toNat := by
  unfold joinProduct
  split
  next m e =>
    split
    · exact le_rfl
    next h =>
      obtain ⟨hm, hx⟩ := not_or.1 h
      have := hp m e rfl hm
      exact joinFinite_e_ge _ _ _ hx (by omega)
  · exact joinSpecial_e_ge _ _ _

theorem joinXp128_e_ge (x : Entry) (n : Nat) : x.e.toNat ≤ (joinXp128 x n).e.toNat := by
  unfold joinXp128
  dsimp only
  split
  · exact joinSpecial_e_ge _ _ _
  · split
    · exact joinSpecial_e_ge _ _ _
    next hy =>
      split
      · exact le_rfl
      next hx => exact joinFinite_e_ge _ _ _ hx (windowExp_le_of_finite hy)

/-! ## An item joins an empty entry -/

/-- v / 2^sh as `joinFinite` brings it into the window: exact, or rounded where bits fall below it (R64). -/
def inWindow (v sh : Int) : Int := if sh ≤ 0 then v * 2 ^ (-sh).toNat else shiftRne v sh.toNat

@[simp] theorem shiftRne_zero_left (k : Nat) : shiftRne 0 k = 0 := by simp [shiftRne]

@[simp] theorem shiftLoses_zero_left (k : Nat) : shiftLoses 0 k = false := by simp [shiftLoses]

@[simp] theorem inWindow_zero (v : Int) : inWindow v 0 = v := by simp [inWindow]

theorem fits112_iff (v : Int) : fits112 v = true ↔ -(2 ^ 111) ≤ v ∧ v < 2 ^ 111 := by simp [fits112]

/-- An empty entry takes over the placement exponent of an item that fits the window there. -/
theorem joinFinite_empty (v ev : Int) (place : Nat) (k : Bool) (h : fits112 (inWindow v ((place : Int) - 511 - ev)) = true) :
    joinFinite {} v ev place k =
      { s := BitVec.ofInt 112 (inWindow v ((place : Int) - 511 - ev)), e := BitVec.ofNat 10 place,
        k := k || (decide (0 < (place : Int) - 511 - ev) && shiftLoses v ((place : Int) - 511 - ev).toNat) } := by
  unfold inWindow at h ⊢
  simp only [joinFinite, BitVec.ofNat_eq_ofNat, BitVec.toNat_zero, BitVec.toInt_zero, Nat.zero_max, shiftRne_zero_left,
    shiftLoses_zero_left, zero_add, Bool.false_or, Bool.or_false, if_pos h]

/-- Rounding gives the quotient's floor or one more, so a bound by a power of two stays. -/
theorem shiftRne_bounds {v : Int} {n k : Nat} (h : v.natAbs < 2 ^ (n + k)) :
    -(2 ^ n) ≤ shiftRne v k ∧ shiftRne v k ≤ 2 ^ n := by
  have hk : (0 : Int) < 2 ^ k := by positivity
  have habs : |v| < 2 ^ n * 2 ^ k := by
    rw [← Int.natCast_natAbs, ← pow_add]; exact_mod_cast h
  obtain ⟨hlo, hhi⟩ := abs_lt.1 habs
  have hq : -(2 ^ n) ≤ v / 2 ^ k := (Int.le_ediv_iff_mul_le hk).2 (by rw [neg_mul]; exact hlo.le)
  have hq' : v / 2 ^ k < 2 ^ n := (Int.ediv_lt_iff_lt_mul hk).2 hhi
  unfold shiftRne
  dsimp only
  split <;> constructor <;> omega

/-- A product whose highest bit is bit l joins at a shift of l − 95 (q + 416 against the offset 511), so it stays within 2^96 (R63). -/
theorem inWindow_bounds {v : Int} {l : Nat} (h : v.natAbs < 2 ^ (l + 1)) :
    -(2 ^ 96) ≤ inWindow v ((l : Int) - 95) ∧ inWindow v ((l : Int) - 95) ≤ 2 ^ 96 := by
  unfold inWindow
  split
  next hsh =>
    have hexp : l + 1 + (-((l : Int) - 95)).toNat = 96 := by omega
    have hpos : (0 : Int) < 2 ^ (-((l : Int) - 95)).toNat := by positivity
    have habs : |v * 2 ^ (-((l : Int) - 95)).toNat| < 2 ^ 96 := by
      rw [abs_mul, abs_of_pos hpos, ← hexp, pow_add]
      refine mul_lt_mul_of_pos_right ?_ hpos
      rw [← Int.natCast_natAbs]; exact_mod_cast h
    exact abs_le.1 habs.le
  next hsh =>
    refine shiftRne_bounds (lt_of_lt_of_eq h ?_)
    congr 1; omega

/-- A nonzero product that joins an empty entry sets E to its placement exponent q + 416 (R61, R63). -/
theorem joinProduct_empty_e (m e : Int) (hm : m ≠ 0) (hlo : 0 ≤ floorLog m.natAbs e + 416)
    (hhi : floorLog m.natAbs e + 416 ≤ 0x3FE) :
    ((joinProduct {} (.fin m e)).e.toNat : Int) = floorLog m.natAbs e + 416 := by
  have hsh : ((floorLog m.natAbs e + 416).toNat : Int) - 511 - e = (m.natAbs.log2 : Int) - 95 := by
    rw [Int.toNat_of_nonneg hlo]; unfold floorLog; ring
  have hfits : fits112 (inWindow m ((m.natAbs.log2 : Int) - 95)) = true := by
    obtain ⟨hl, hu⟩ := inWindow_bounds (v := m) Nat.lt_log2_self
    exact (fits112_iff _).2 ⟨by omega, by omega⟩
  have hjoin : joinProduct {} (.fin m e) = joinFinite {} m e (floorLog m.natAbs e + 416).toNat false := by
    simp [joinProduct, hm]
  rw [hjoin, joinFinite_empty _ _ _ _ (by rw [hsh]; exact hfits), BitVec.toNat_ofNat]
  omega

/-- An empty entry that a finite XP128 value joins holds that value (R61, R71). -/
theorem joinXp128_empty {n : Nat} {y : Entry} (hn : xp128 n = (y, true)) (hy : y.e ≠ 0x3FF) : joinXp128 {} n = y := by
  have hsh : (y.e.toNat : Int) - 511 - ((y.e.toNat : Int) - 511) = 0 := by ring
  have hfits : fits112 y.s.toInt = true :=
    (fits112_iff _).2 ⟨BitVec.le_toInt y.s, BitVec.toInt_lt⟩
  have hjoin : joinXp128 {} n = joinFinite {} y.s.toInt ((y.e.toNat : Int) - 511) y.e.toNat y.k := by
    simp only [joinXp128, hn, Bool.not_true, Bool.false_eq_true, if_false, if_neg hy]
    rfl
  rw [hjoin, joinFinite_empty _ _ _ _ (by rw [hsh, inWindow_zero]; exact hfits), hsh, inWindow_zero]
  simp

/-! ## Entries of tiles -/

theorem Core.entry_congr {k k' : Core} (h : k'.acc = k.acc) (d i j : Nat) : k'.entry d i j = k.entry d i j := by
  unfold Core.entry; rw [h]

@[simp] theorem Core.acc_store (k : Core) (a : Nat) (bs : Bytes) : (k.store a bs).acc = k.acc := rfl

@[simp] theorem Core.acc_orKerf (k : Core) (xs : List Entry) : (k.orKerf xs).acc = k.acc := rfl

@[simp] theorem Core.acc_setSlot (k : Core) (n : Nat) (x : Slot) : (k.setSlot n x).acc = k.acc := by
  unfold Core.setSlot; split <;> rfl

/-- Stores leave the tiles as they were. -/
theorem Core.acc_foldl_store {β : Type} (addr : β → Nat) (data : β → Bytes) (ys : List β) (k : Core) :
    (ys.foldl (fun k y => k.store (addr y) (data y)) k).acc = k.acc :=
  foldl_keeps (fun c : Core => c.acc = k.acc) _ (fun c y hc => (c.acc_store (addr y) (data y)).trans hc) ys k rfl

section
variable {i j : Nat} (hi : i < 16) (hj : j < 16)
include hi hj

/-- Clearing a tile empties its entries and leaves those of every other tile. -/
theorem Core.entry_clearTile (k : Core) (t d : Nat) :
    (k.clearTile t).entry d i j = if d = t then {} else k.entry d i j := by
  unfold Core.clearTile Core.entry
  rw [look_wipe]
  exact if_congr (by omega) rfl rfl

theorem Core.entry_setTile (k : Core) (t d : Nat) {xs : List Entry} (hxs : xs.length = 256) :
    (k.setTile t xs).entry d i j = if d = t then xs.getD (16 * i + j) {} else k.entry d i j := by
  unfold Core.setTile Core.entry
  rw [look_blit, hxs]
  by_cases h : d = t
  · rw [if_pos (by omega), if_pos h]
    congr 1; omega
  · rw [if_neg (by omega), if_neg h]

/-- A tile whose entries are each replaced by a function of their index. -/
theorem Core.entry_setTile_map (k : Core) (t d : Nat) (f : Nat → Entry) :
    (k.setTile t ((List.range 256).map f)).entry d i j = if d = t then f (16 * i + j) else k.entry d i j := by
  have hlt : 16 * i + j < 256 := by omega
  rw [Core.entry_setTile hi hj k t d (by simp)]
  simp [List.getD_eq_getElem?_getD, hlt]

/-- The entry that an operation reads from its copy of a tile. -/
theorem Core.getD_tile (k : Core) (t : Nat) : (k.tile t).getD (16 * i + j) {} = k.entry t i j := by
  unfold Core.tile Core.entry
  rw [getD_readMany _ _ _ _ _ (by omega)]
  congr 1; omega

/-! ## What an operation of the tensor queue does to K -/

omit hi hj in
theorem dotProduct_keeps_k {x : Entry} (as ws : List Num) (h : x.k = true) : (dotProduct x as ws).k = true :=
  foldl_keeps (fun y : Entry => y.k = true) _ (fun _ p hy => joinProduct_keeps_k (p.1.mul p.2) hy) _ _ h

/-- A clear takes K from the entries of its own tile alone. -/
theorem clearTile_keeps_k {k : Core} {d t : Nat} (h : (k.entry d i j).k = true) :
    ((k.clearTile t).entry d i j).k = true ∨ d = t := by
  rw [Core.entry_clearTile hi hj]
  split
  next hd => exact .inr hd
  · exact .inl h

/-- A tile replaced entry by entry keeps every K flag that is set, where each new entry keeps its own. -/
theorem setTile_keeps_k {k : Core} {d : Nat} (t : Nat) (f : Nat → Entry)
    (hf : ((k.tile t).getD (16 * i + j) {}).k = true → (f (16 * i + j)).k = true) (h : (k.entry d i j).k = true) :
    ((k.setTile t ((List.range 256).map f)).entry d i j).k = true := by
  rw [Core.entry_setTile_map hi hj]
  split
  next hd => exact hf (by rw [Core.getD_tile hi hj, ← hd]; exact h)
  · exact h

theorem multiply_keeps_k {k : Core} {d : Nat} (fa fw : Fmt) (t n ga rs slot w : Nat) (h : (k.entry d i j).k = true) :
    ((k.multiply fa fw t n ga rs slot w).entry d i j).k = true := by
  unfold Core.multiply
  exact setTile_keeps_k hi hj t _ (dotProduct_keeps_k _ _) h

/-- A TMMA clears K only where it clears its tile first, and only there. -/
theorem runTmma_keeps_k {k k' : Core} {clear noFill : Bool} {d t : Nat} {ga gb imm : Word}
    (hdone : runTmma k clear t ga gb imm noFill = .done k') (h : (k.entry d i j).k = true) :
    (k'.entry d i j).k = true ∨ (clear = true ∧ d = t) := by
  unfold runTmma at hdone
  split at hdone
  · cases hdone
  · dsimp only at hdone
    split at hdone
    · split at hdone <;> cases hdone
    · split at hdone
      · cases hdone
      · cases hdone
        cases clear with
        | false => exact .inl (multiply_keeps_k hi hj _ _ _ _ _ _ _ _ h)
        | true =>
          exact (clearTile_keeps_k hi hj h).imp (fun h1 => multiply_keeps_k hi hj _ _ _ _ _ _ _ _ h1) fun hd => ⟨rfl, hd⟩

theorem runTjoin_keeps_k {k k' : Core} {d t : Nat} {ga imm : Word}
    (hdone : runTjoin k t ga imm = .done k') (h : (k.entry d i j).k = true) : (k'.entry d i j).k = true := by
  unfold runTjoin at hdone
  dsimp only at hdone
  split at hdone
  · cases hdone
  · cases hdone
    exact setTile_keeps_k hi hj t _ (joinXp128_keeps_k _) h

omit hi hj in
theorem runSrel_acc {k k' : Core} {slot : Nat} {noFill : Bool} (hdone : runSrel k slot noFill = .done k') : k'.acc = k.acc := by
  unfold runSrel at hdone
  split at hdone
  · cases hdone; exact Core.acc_setSlot _ _ _
  · split at hdone <;> cases hdone

/-- A drain clears K only in the tiles that it drains, and only where m[3] = 1 (R134). -/
theorem runDrain_keeps_k {k k' : Core} {d t : Nat} {ga gb imm : Word} {m : BitVec 5}
    (hdone : runDrain k t ga gb imm m = .done k') (h : (k.entry d i j).k = true) :
    (k'.entry d i j).k = true ∨ (m.getLsbD 3 = true ∧ (d = t ∨ (mxCode (bits imm.toNat 0 4) = true ∧ d = t + 1))) := by
  unfold runDrain at hdone
  dsimp only at hdone
  split at hdone
  · cases hdone
  · cases hdone
    generalize hread : Core.orKerf _ _ = kr
    have hacc : kr.acc = k.acc := by
      rw [← hread, Core.acc_orKerf]; exact Core.acc_foldl_store Prod.fst Prod.snd _ k
    have hkr : (kr.entry d i j).k = true := by rw [Core.entry_congr hacc]; exact h
    split
    next hm =>
      split
      next hmx =>
        rcases clearTile_keeps_k hi hj (t := t) hkr with h1 | h1
        · exact (clearTile_keeps_k hi hj h1).imp_right fun h2 => ⟨hm, .inr ⟨hmx, h2⟩⟩
        · exact .inr ⟨hm, .inl h1⟩
      · exact (clearTile_keeps_k hi hj hkr).imp_right fun h1 => ⟨hm, .inl h1⟩
    · exact .inl hkr

/-- An exportTile clears K only in the tile that it names, and only where m[3] = 1 (R134). -/
theorem runExport_keeps_k {k k' : Core} {d t : Nat} {ga imm : Word} {m : BitVec 5}
    (hdone : runExport k t ga imm m = .done k') (h : (k.entry d i j).k = true) :
    (k'.entry d i j).k = true ∨ (d = t ∧ m.getLsbD 3 = true) := by
  unfold runExport at hdone
  cases hdone
  generalize hread : Core.orKerf _ _ = kr
  have hacc : kr.acc = k.acc := by
    rw [← hread, Core.acc_orKerf]; exact Core.acc_foldl_store _ _ _ k
  have hkr : (kr.entry d i j).k = true := by rw [Core.entry_congr hacc]; exact h
  split
  next hm => exact (clearTile_keeps_k hi hj hkr).imp_right fun h1 => ⟨h1, hm⟩
  · exact .inl hkr

/-- R67: an operation of the tensor queue that leaves K clear where it was set is one that clears the entry. -/
theorem execute_keeps_k {k k' : Core} {noFill : Bool} {op : TensorOp} {d : Nat}
    (hdone : execute k noFill op = .done k') (h : (k.entry d i j).k = true) :
    (k'.entry d i j).k = true ∨ op = .tclr d ∨ (∃ ga gb imm, op = .tmma true d ga gb imm) ∨
      (∃ e ga gb imm m, op = .drain e ga gb imm m ∧ m.getLsbD 3 = true ∧
        (d = e ∨ (mxCode (bits imm.toNat 0 4) = true ∧ d = e + 1))) ∨
      ∃ ga imm m, op = .exportTile d ga imm m ∧ m.getLsbD 3 = true := by
  cases op with
  | tmma clear t ga gb imm =>
    exact (runTmma_keeps_k hi hj hdone h).imp_right fun ⟨hc, hd⟩ => .inr (.inl ⟨ga, gb, imm, by rw [hc, hd]⟩)
  | tclr t =>
    cases hdone
    exact (clearTile_keeps_k hi hj h).imp_right fun hd => .inl (by rw [hd])
  | tjoin t ga imm => exact .inl (runTjoin_keeps_k hi hj hdone h)
  | drain t ga gb imm m =>
    exact (runDrain_keeps_k hi hj hdone h).imp_right fun hd => .inr (.inr (.inl ⟨t, ga, gb, imm, m, rfl, hd⟩))
  | exportTile t ga imm m =>
    exact (runExport_keeps_k hi hj hdone h).imp_right fun ⟨hd, hm⟩ => .inr (.inr (.inr ⟨ga, imm, m, by rw [hd], hm⟩))
  | srel slot => exact .inl (by rw [Core.entry_congr (runSrel_acc hdone)]; exact h)

end

/-- Settles O11: the cleared entry, what each join does to E and to K, and which operations of the tensor queue take K
from an entry. -/
theorem clearAndKerf : Obligations.ClearAndKerf := by
  unfold Obligations.ClearAndKerf
  refine ⟨fun k d i j hi hj => ?_, rfl, fun x p n => ?_, joinProduct_empty_e, fun n y hn hy _ => joinXp128_empty hn hy,
    fun k k' w op d i j hi hj => execute_keeps_k hi hj⟩
  · rw [Core.entry_clearTile hi hj, if_pos rfl]
  · exact ⟨fun hp => ⟨joinProduct_e_ge x p hp, joinProduct_keeps_k p⟩, joinXp128_e_ge x n, joinXp128_keeps_k n⟩

end Sys2Proof.Machine
end

section
/-! SUPPORT. Scalar instructions (R125, R126): the fields of an instruction that issues, the results of group 0x0, and the loads, stores and
faults of group 0x1. -/

namespace Sys2Proof.Machine

/-! ## The fields of an instruction -/

/-- R107: a word that is an instruction has legal fields. -/
theorem fieldsOk_of_decodeWord {w : Dword} {o : Op} {f : Fields} (h : decodeWord w = some (o, f)) : fieldsOk o f = true := by
  unfold decodeWord at h
  split at h
  · split at h
    next hok => cases h; exact hok
    · cases h
  · cases h

/-- What a core fetches without a fault is an instruction of its program. -/
theorem decodeWord_of_fetch {s : State} {c : Nat} {o : Op} {f : Fields} (h : fetch s c = .inr (o, f)) : ∃ w, decodeWord w = some (o, f) := by
  unfold fetch at h
  dsimp only at h
  split at h
  · cases h
  · split at h
    · cases h
    · split at h
      · cases h
      · split at h
        next hw => cases h; exact ⟨_, hw⟩
        · cases h

theorem Issues.fieldsOk {s : State} {c : Fin 8192} {o : Op} {f : Fields} (h : Issues s c o f) : fieldsOk o f = true := by
  obtain ⟨_, hfetch, _⟩ := h
  obtain ⟨w, hw⟩ := decodeWord_of_fetch hfetch
  exact fieldsOk_of_decodeWord hw

/-- The operand that m[0] does not choose is zero (R125). -/
theorem op2Ok_iff (f : Fields) : op2Ok f = true ↔ (f.m.getLsbD 0 = false → f.imm = 0) ∧ (f.m.getLsbD 0 = true → f.b = 0) := by
  unfold op2Ok
  cases f.m.getLsbD 0 <;> simp

/-- A mode field that reads zero: the whole of it, and m[0]. -/
theorem mode_bit_zero {m : BitVec 5} (h : (m.toNat == 0) = true) : m = 0 ∧ m.getLsbD 0 = false := by
  have hm : m = 0 := BitVec.eq_of_toNat_eq (by simpa using h)
  exact ⟨hm, by rw [hm]; rfl⟩

/-! ## From the issue of an instruction to its statement -/

section
variable {o : Op} {c : Fin 8192} {f : Fields} {s : State} {body : Core → Issued}

/-- A core instruction that is done gives the core that it leaves. -/
theorem Issues.gives {i : Instr} {k : Core} {n : Nat} (h : Issues s c o f)
    (hexec : exec i s = .next (issue o c f (s.strike c {}) body)) (hbody : body (s.core c) = .done k n) : Gives i s c k :=
  ⟨_, by rw [hexec, State.strike_none], issue_done h body k n hbody⟩

/-- A core instruction that faults stops its core. -/
theorem Issues.faults {i : Instr} {code : Byte} {aux : Half} (h : Issues s c o f)
    (hexec : exec i s = .next (issue o c f (s.strike c {}) body)) (hbody : body (s.core c) = .fault code aux) :
    Faults i s c code aux := by
  unfold Faults
  rw [hexec, State.strike_none, issue_fault h body id code aux hbody]

/-! ## Results of group 0x0 (R125) -/

/-- An instruction of two operands writes gd with its operation's result. -/
theorem Issues.gives_scalar {i : Instr} {op : Word → Word → Word} {v : Word} (h : Issues s c o f)
    (hexec : exec i s = .next (issue o c f (s.strike c {}) (scalar f op)))
    (hv : op ((s.core c).getG f.a) ((s.core c).op2 f) = v) : Gives i s c ((s.core c).setG f.d v).next :=
  h.gives hexec (by rw [← hv]; rfl)

/-- An instruction that writes a predicate. -/
theorem Issues.gives_setP {i : Instr} {op : Core → Bool} {v : Bool} (h : Issues s c o f)
    (hexec : exec i s = .next (issue o c f (s.strike c {}) fun k => .step (k.setP f.d.toNat (op k))))
    (hv : op (s.core c) = v) : Gives i s c ((s.core c).setP f.d.toNat v).next :=
  h.gives hexec (by rw [hv]; rfl)

end

theorem mul_eq_ofNat (x y : Word) : x * y = BitVec.ofNat 32 (x.toNat * y.toNat) := by
  rw [BitVec.ofNat_mul, BitVec.ofNat_toNat, BitVec.ofNat_toNat, BitVec.setWidth_eq, BitVec.setWidth_eq]

theorem minWord_eq (uns : Bool) (x y : Word) : minWord uns x y =
    if uns then (if y.toNat < x.toNat then y else x) else (if y.toInt < x.toInt then y else x) := by
  cases uns <;> simp [minWord, BitVec.slt_eq_decide, BitVec.ult_eq_decide]

theorem maxWord_eq (uns : Bool) (x y : Word) : maxWord uns x y =
    if uns then (if x.toNat < y.toNat then y else x) else (if x.toInt < y.toInt then y else x) := by
  cases uns <;> simp [maxWord, BitVec.slt_eq_decide, BitVec.ult_eq_decide]

/-- The compare of SETP by its code, over the two readings of a word (R125). -/
theorem compareG_eq (x y : Word) :
    compareG 0 x y = decide (x = y) ∧ compareG 1 x y = decide (x ≠ y) ∧
    compareG 2 x y = decide (x.toInt < y.toInt) ∧ compareG 3 x y = decide (x.toNat < y.toNat) ∧
    compareG 4 x y = decide (y.toInt ≤ x.toInt) ∧ ∀ n, compareG (n + 5) x y = decide (y.toNat ≤ x.toNat) := by
  refine ⟨beq_eq_decide x y, ?_, BitVec.slt_eq_decide, BitVec.ult_eq_decide, ?_, fun n => ?_⟩
  · simp [compareG, bne, beq_eq_decide]
  · simp [compareG, BitVec.slt_eq_decide, ← decide_not]
  · simp [compareG, BitVec.ult_eq_decide, ← decide_not]

/-- R125: an instruction of group 0x0 with a second operand reserves the one that m[0] does not choose. -/
theorem op2Ok_of_fieldsOk {o : Op} {f : Fields} (h : fieldsOk o f = true)
    (ho : o ∈ [Op.add, .sub, .and, .or, .xor, .shl, .shr, .sar, .mul, .mulh, .setp, .min, .max]) : op2Ok f = true := by
  simp only [List.mem_cons, List.not_mem_nil, or_false] at ho
  rcases ho with rfl | rfl | rfl | rfl | rfl | rfl | rfl | rfl | rfl | rfl | rfl | rfl | rfl <;>
    exact (Bool.and_eq_true_iff.1 h).2

/-- R125: the bits of m that an instruction of group 0x0 reserves are zero. -/
theorem mode_of_fieldsOk {o : Op} {f : Fields} (h : fieldsOk o f = true) :
    (o ∈ [Op.add, .sub, .and, .or, .xor, .shl, .shr, .sar, .mul] → f.m.toNat < 2) ∧
    (o ∈ [Op.mulh, .min, .max, .plog] → f.m.toNat < 4) ∧ (o = .setp → f.m.toNat < 12) ∧ (o = .li ∨ o = .sel → f.m = 0) := by
  refine ⟨fun ho => ?_, fun ho => ?_, ?_, ?_⟩
  · simp only [List.mem_cons, List.not_mem_nil, or_false] at ho
    rcases ho with rfl | rfl | rfl | rfl | rfl | rfl | rfl | rfl | rfl <;>
      exact of_decide_eq_true (Bool.and_eq_true_iff.1 h).1
  · simp only [List.mem_cons, List.not_mem_nil, or_false] at ho
    rcases ho with rfl | rfl | rfl | rfl <;> simp only [fieldsOk, Bool.and_eq_true, decide_eq_true_eq] at h <;> omega
  · rintro rfl
    simp only [fieldsOk, Bool.and_eq_true, decide_eq_true_eq] at h
    omega
  · rintro (rfl | rfl) <;> simp only [fieldsOk, Bool.and_eq_true] at h
    · exact (mode_bit_zero h.2).1
    · exact (mode_bit_zero h.1).1

/-- Settles O1: each instruction of group 0x0 is issued with the model's own operation, which is the rule's, and an
instruction's fields are legal. -/
theorem scalarResults : Obligations.ScalarResults := by
  unfold Obligations.ScalarResults
  refine ⟨fun c f s => ?_, fun c f s => ⟨fun h => h.gives_setP rfl ?_, fun h => h.gives_setP rfl ?_⟩, fun w o f hw => ?_⟩
  · exact ⟨fun h => h.gives_scalar rfl rfl, fun h => h.gives_scalar rfl rfl, fun h => h.gives_scalar rfl rfl,
      fun h => h.gives_scalar rfl rfl, fun h => h.gives_scalar rfl rfl, fun h => h.gives_scalar rfl rfl,
      fun h => h.gives_scalar rfl rfl, fun h => h.gives_scalar rfl rfl, fun h => h.gives_scalar rfl (mul_eq_ofNat _ _),
      fun h => h.gives_scalar rfl rfl, fun h => h.gives rfl rfl, fun h => h.gives rfl rfl,
      fun h => h.gives_scalar rfl (minWord_eq _ _ _), fun h => h.gives_scalar rfl (maxWord_eq _ _ _)⟩
  · obtain ⟨heq, hne, hslt, hult, hsge, huge⟩ := compareG_eq ((s.core c).getG f.a) ((s.core c).op2 f)
    match bits f.m.toNat 1 3 with
    | 0 => exact heq
    | 1 => exact hne
    | 2 => exact hslt
    | 3 => exact hult
    | 4 => exact hsge
    | n + 5 => exact huge n
  · match bits f.m.toNat 0 2 with
    | 0 | 1 | 2 | _ + 3 => rfl
  · have hok := fieldsOk_of_decodeWord hw
    exact ⟨fun ho => (op2Ok_iff f).1 (op2Ok_of_fieldsOk hok ho), mode_of_fieldsOk hok⟩

/-! ## Loads and stores of group 0x1 (R126) -/

theorem readNum_one (m : List Host.Cell) (a : Nat) : readNum m a 1 = (byteAt m a).toNat := by
  simp [readNum, readBytes, readMany, leNat, byteAt]

/-- R126: LDW and the stores reserve m[0]. -/
theorem mode_zero_of_fieldsOk {o : Op} {f : Fields} (h : fieldsOk o f = true) (ho : o ∈ [Op.ldw, .stw, .sth, .stb]) :
    f.m.getLsbD 0 = false := by
  simp only [List.mem_cons, List.not_mem_nil, or_false] at ho
  rcases ho with rfl | rfl | rfl | rfl <;> exact (mode_bit_zero (Bool.and_eq_true_iff.1 h).2).2

/-- Every byte of the scratchpad after the low `n` bytes of a number were stored at `a`: those bytes in little-endian order, and elsewhere what
was there. -/
theorem Core.byteAt_store_leBytes (k : Core) (a n v x : Nat) : byteAt (k.store a (leBytes n v)).scratch x =
    if a ≤ x ∧ x < a + n then BitVec.ofNat 8 (v / 256 ^ (x - a)) else byteAt k.scratch x := by
  unfold Core.store
  rw [byteAt_writeBytes, leBytes_length]
  split
  next hx => exact getD_leBytes n v (x - a) (by omega)
  · rfl

/-- What a load of `n` bytes writes to gd (R126). -/
def Core.loaded (k : Core) (f : Fields) (n : Nat) : Word :=
  let v := readNum k.scratch (k.addr f) n
  if f.m.getLsbD 0 then BitVec.ofInt 32 (signed (8 * n) v) else BitVec.ofNat 32 v

theorem Core.loaded_word (k : Core) {f : Fields} (hm : f.m.getLsbD 0 = false) :
    k.loaded f 4 = BitVec.ofNat 32 (readNum k.scratch (k.addr f) 4) := by
  unfold Core.loaded
  rw [hm]
  rfl

theorem Core.loaded_half (k : Core) (f : Fields) : k.loaded f 2 =
    if f.m.getLsbD 0 then (BitVec.ofNat 16 (readNum k.scratch (k.addr f) 2)).signExtend 32
    else (BitVec.ofNat 16 (readNum k.scratch (k.addr f) 2)).setWidth 32 := by
  unfold Core.loaded
  rw [← signed16, BitVec.setWidth_ofNat_of_le_of_lt (by decide) (readNum_lt _ _ 2)]

theorem Core.loaded_byte (k : Core) (f : Fields) : k.loaded f 1 =
    if f.m.getLsbD 0 then (byteAt k.scratch (k.addr f)).signExtend 32 else (byteAt k.scratch (k.addr f)).setWidth 32 := by
  unfold Core.loaded
  simp only [signed8, readNum_one, BitVec.ofNat_toNat, BitVec.setWidth_eq]

section
variable {o : Op} {c : Fin 8192} {f : Fields} {s : State} {n : Nat} {i : Instr} {x : Core → Core}

/-- A load or store whose bytes can be accessed does not fault: its core becomes what it computes. -/
theorem Issues.gives_access (h : Issues s c o f) (hn : 0 < n)
    (hexec : exec i s = .next (issue o c f (s.strike c {}) fun k => .unless (k.scalarFault (k.addr f) n) (.step (x k))))
    (hacc : (s.core c).Accessible ((s.core c).addr f) n n) : Gives i s c (x (s.core c)).next :=
  h.gives hexec (by rw [scalarFault_none hn hacc]; rfl)

/-- A load whose bytes can be accessed writes gd with them. -/
theorem Issues.gives_load {v : Word} (h : Issues s c o f) (hn : 0 < n)
    (hexec : exec i s = .next (issue o c f (s.strike c {}) (scalarLoad f n)))
    (hacc : (s.core c).Accessible ((s.core c).addr f) n n) (hv : (s.core c).loaded f n = v) :
    Gives i s c ((s.core c).setG f.d v).next :=
  hv ▸ h.gives_access (x := fun k => k.setG f.d (k.loaded f n)) hn hexec hacc

/-- A store whose bytes can be accessed stores the low bytes of gb. -/
theorem Issues.gives_store (h : Issues s c o f) (hn : 0 < n)
    (hexec : exec i s = .next (issue o c f (s.strike c {}) (scalarStore f n)))
    (hacc : (s.core c).Accessible ((s.core c).addr f) n n) :
    Gives i s c (((s.core c).store ((s.core c).addr f) (leBytes n ((s.core c).getG f.b).toNat)).overtake
      [((s.core c).addr f, n)]).next :=
  h.gives_access (x := fun k => (k.store (k.addr f) (leBytes n (k.getG f.b).toNat)).overtake [(k.addr f, n)]) hn hexec hacc

/-- R121, R126: what an access of group 0x1 faults with, by its address: first the address range, then the alignment, then an uncorrectable
word. -/
theorem Issues.faults_access (h : Issues s c o f) (hn : n = 1 ∨ n = 2 ∨ n = 4)
    (hexec : exec i s = .next (issue o c f (s.strike c {}) fun k => .unless (k.scalarFault (k.addr f) n) (.step (x k)))) :
    (0x1_8000 ≤ (s.core c).addr f → Faults i s c addressRange 0) ∧
    ((s.core c).addr f < 0x1_8000 → (s.core c).addr f % n ≠ 0 → Faults i s c misaligned 0) ∧
    ((s.core c).addr f < 0x1_8000 → (s.core c).addr f % n = 0 → (s.core c).addr f / 16 ∈ (s.core c).badWords →
      Faults i s c dataError 0) := by
  have hfault : ∀ code, (s.core c).scalarFault ((s.core c).addr f) n = some code → Faults i s c code 0 :=
    fun code hcode => h.faults hexec (by rw [hcode]; rfl)
  obtain ⟨hrange, hmis, hdata⟩ := scalarFault_some (s.core c) ((s.core c).addr f) n hn
  exact ⟨fun ha => hfault _ (hrange ha), fun ha hal => hfault _ (hmis ha hal), fun ha hal hw => hfault _ (hdata ha hal hw)⟩

end

/-- Settles O4: each load and store does what its own rule gives where its bytes can be accessed, and faults by its address where they
cannot. -/
theorem scalarMemory : Obligations.ScalarMemory := by
  unfold Obligations.ScalarMemory
  refine ⟨fun c f s => ⟨fun h hacc => ?_, fun h hacc => ?_, fun h hacc => ?_⟩, fun c f s => ?_, fun c f s => ?_, fun w o f hw ho => ?_⟩
  · exact h.gives_load (by decide) rfl hacc (Core.loaded_word _ (mode_zero_of_fieldsOk h.fieldsOk (by decide)))
  · exact h.gives_load (by decide) rfl hacc (Core.loaded_half _ f)
  · exact h.gives_load (by decide) rfl hacc (Core.loaded_byte _ f)
  · have hbytes := fun n => (s.core c).byteAt_store_leBytes ((s.core c).addr f) n ((s.core c).getG f.b).toNat
    exact ⟨fun h hacc => ⟨h.gives_store (by decide) rfl hacc, hbytes 4⟩, fun h hacc => ⟨h.gives_store (by decide) rfl hacc, hbytes 2⟩,
      fun h hacc => ⟨h.gives_store (by decide) rfl hacc, hbytes 1⟩⟩
  · exact ⟨fun h => h.faults_access (by decide) rfl, fun h => h.faults_access (by decide) rfl, fun h => h.faults_access (by decide) rfl,
      fun h => h.faults_access (by decide) rfl, fun h => h.faults_access (by decide) rfl, fun h => h.faults_access (by decide) rfl⟩
  · exact mode_zero_of_fieldsOk (fieldsOk_of_decodeWord hw) (List.mem_cons_of_mem _ ho)

end Sys2Proof.Machine
end
